-- ==== Sys2Proof/Word.lean ====
section
/-! DEFINITION. The machine's word types: the 8-bit byte of every register and memory cell
(10_state.md R10, 20_memory.md R40) and the 16-bit CPU address. -/

namespace Sys2Proof

/-- A byte: the width of A, X, Y, S, P and of every memory access (R10, R55). -/
abbrev Byte := BitVec 8

/-- A CPU address: PC and every address of the 64KB space (R10, R40). -/
abbrev Addr := BitVec 16

/-- A PPU address: the 14 bits of the PPU's own space (R275). -/
abbrev PpuAddr := BitVec 14

end Sys2Proof
end

