-- ==== Sys2Proof/Syntax.lean ====
section
/-! DEFINITION. The instruction set: one constructor for each of the 151 rows of spec/opcode_table.json
(30_encoding.md R89). A constructor is a mnemonic with one addressing mode; its argument is the operand
the mode gives the instruction (R85 to R87): `m` an immediate byte, `p` a zero-page address or pointer,
`a` a 16-bit address, `disp` a signed branch displacement. -/

namespace Sys2Proof

/-- The 151 documented instructions of the 2A03 (R89). The docstring of each gives its syntax, its opcode
byte and the rules of its meaning and its mode. -/
inductive Instr where
  /-- `BRK`, opcode $00: R210, R101. -/
  | brk
  /-- `ORA ($xx,X)`, opcode $01: R166, R111. -/
  | oraIndX (p : Byte)
  /-- `ORA $xx`, opcode $05: R166, R104. -/
  | oraZp (p : Byte)
  /-- `ASL $xx`, opcode $06: R169, R104. -/
  | aslZp (p : Byte)
  /-- `PHP`, opcode $08: R138, R101. -/
  | php
  /-- `ORA #$xx`, opcode $09: R166, R103. -/
  | oraImm (m : Byte)
  /-- `ASL A`, opcode $0A: R169, R102. -/
  | aslAcc
  /-- `ORA $xxxx`, opcode $0D: R166, R107. -/
  | oraAbs (a : Addr)
  /-- `ASL $xxxx`, opcode $0E: R169, R107. -/
  | aslAbs (a : Addr)
  /-- `BPL label`, opcode $10: R191, R113. -/
  | bpl (disp : Int)
  /-- `ORA ($xx),Y`, opcode $11: R166, R112. -/
  | oraIndY (p : Byte)
  /-- `ORA $xx,X`, opcode $15: R166, R105. -/
  | oraZpX (p : Byte)
  /-- `ASL $xx,X`, opcode $16: R169, R105. -/
  | aslZpX (p : Byte)
  /-- `CLC`, opcode $18: R200, R101. -/
  | clc
  /-- `ORA $xxxx,Y`, opcode $19: R166, R109. -/
  | oraAbsY (a : Addr)
  /-- `ORA $xxxx,X`, opcode $1D: R166, R108. -/
  | oraAbsX (a : Addr)
  /-- `ASL $xxxx,X`, opcode $1E: R169, R108. -/
  | aslAbsX (a : Addr)
  /-- `JSR $xxxx`, opcode $20: R183, R107. -/
  | jsr (a : Addr)
  /-- `AND ($xx,X)`, opcode $21: R165, R111. -/
  | andIndX (p : Byte)
  /-- `BIT $xx`, opcode $24: R168, R104. -/
  | bitZp (p : Byte)
  /-- `AND $xx`, opcode $25: R165, R104. -/
  | andZp (p : Byte)
  /-- `ROL $xx`, opcode $26: R171, R104. -/
  | rolZp (p : Byte)
  /-- `PLP`, opcode $28: R139, R101. -/
  | plp
  /-- `AND #$xx`, opcode $29: R165, R103. -/
  | andImm (m : Byte)
  /-- `ROL A`, opcode $2A: R171, R102. -/
  | rolAcc
  /-- `BIT $xxxx`, opcode $2C: R168, R107. -/
  | bitAbs (a : Addr)
  /-- `AND $xxxx`, opcode $2D: R165, R107. -/
  | andAbs (a : Addr)
  /-- `ROL $xxxx`, opcode $2E: R171, R107. -/
  | rolAbs (a : Addr)
  /-- `BMI label`, opcode $30: R190, R113. -/
  | bmi (disp : Int)
  /-- `AND ($xx),Y`, opcode $31: R165, R112. -/
  | andIndY (p : Byte)
  /-- `AND $xx,X`, opcode $35: R165, R105. -/
  | andZpX (p : Byte)
  /-- `ROL $xx,X`, opcode $36: R171, R105. -/
  | rolZpX (p : Byte)
  /-- `SEC`, opcode $38: R201, R101. -/
  | sec
  /-- `AND $xxxx,Y`, opcode $39: R165, R109. -/
  | andAbsY (a : Addr)
  /-- `AND $xxxx,X`, opcode $3D: R165, R108. -/
  | andAbsX (a : Addr)
  /-- `ROL $xxxx,X`, opcode $3E: R171, R108. -/
  | rolAbsX (a : Addr)
  /-- `RTI`, opcode $40: R211, R101. -/
  | rti
  /-- `EOR ($xx,X)`, opcode $41: R167, R111. -/
  | eorIndX (p : Byte)
  /-- `EOR $xx`, opcode $45: R167, R104. -/
  | eorZp (p : Byte)
  /-- `LSR $xx`, opcode $46: R170, R104. -/
  | lsrZp (p : Byte)
  /-- `PHA`, opcode $48: R136, R101. -/
  | pha
  /-- `EOR #$xx`, opcode $49: R167, R103. -/
  | eorImm (m : Byte)
  /-- `LSR A`, opcode $4A: R170, R102. -/
  | lsrAcc
  /-- `JMP $xxxx`, opcode $4C: R180, R107. -/
  | jmpAbs (a : Addr)
  /-- `EOR $xxxx`, opcode $4D: R167, R107. -/
  | eorAbs (a : Addr)
  /-- `LSR $xxxx`, opcode $4E: R170, R107. -/
  | lsrAbs (a : Addr)
  /-- `BVC label`, opcode $50: R192, R113. -/
  | bvc (disp : Int)
  /-- `EOR ($xx),Y`, opcode $51: R167, R112. -/
  | eorIndY (p : Byte)
  /-- `EOR $xx,X`, opcode $55: R167, R105. -/
  | eorZpX (p : Byte)
  /-- `LSR $xx,X`, opcode $56: R170, R105. -/
  | lsrZpX (p : Byte)
  /-- `CLI`, opcode $58: R202, R101. -/
  | cli
  /-- `EOR $xxxx,Y`, opcode $59: R167, R109. -/
  | eorAbsY (a : Addr)
  /-- `EOR $xxxx,X`, opcode $5D: R167, R108. -/
  | eorAbsX (a : Addr)
  /-- `LSR $xxxx,X`, opcode $5E: R170, R108. -/
  | lsrAbsX (a : Addr)
  /-- `RTS`, opcode $60: R184, R101. -/
  | rts
  /-- `ADC ($xx,X)`, opcode $61: R146, R111. -/
  | adcIndX (p : Byte)
  /-- `ADC $xx`, opcode $65: R146, R104. -/
  | adcZp (p : Byte)
  /-- `ROR $xx`, opcode $66: R172, R104. -/
  | rorZp (p : Byte)
  /-- `PLA`, opcode $68: R137, R101. -/
  | pla
  /-- `ADC #$xx`, opcode $69: R146, R103. -/
  | adcImm (m : Byte)
  /-- `ROR A`, opcode $6A: R172, R102. -/
  | rorAcc
  /-- `JMP ($xxxx)`, opcode $6C: R181, R110. -/
  | jmpInd (a : Addr)
  /-- `ADC $xxxx`, opcode $6D: R146, R107. -/
  | adcAbs (a : Addr)
  /-- `ROR $xxxx`, opcode $6E: R172, R107. -/
  | rorAbs (a : Addr)
  /-- `BVS label`, opcode $70: R193, R113. -/
  | bvs (disp : Int)
  /-- `ADC ($xx),Y`, opcode $71: R146, R112. -/
  | adcIndY (p : Byte)
  /-- `ADC $xx,X`, opcode $75: R146, R105. -/
  | adcZpX (p : Byte)
  /-- `ROR $xx,X`, opcode $76: R172, R105. -/
  | rorZpX (p : Byte)
  /-- `SEI`, opcode $78: R203, R101. -/
  | sei
  /-- `ADC $xxxx,Y`, opcode $79: R146, R109. -/
  | adcAbsY (a : Addr)
  /-- `ADC $xxxx,X`, opcode $7D: R146, R108. -/
  | adcAbsX (a : Addr)
  /-- `ROR $xxxx,X`, opcode $7E: R172, R108. -/
  | rorAbsX (a : Addr)
  /-- `STA ($xx,X)`, opcode $81: R123, R111. -/
  | staIndX (p : Byte)
  /-- `STY $xx`, opcode $84: R125, R104. -/
  | styZp (p : Byte)
  /-- `STA $xx`, opcode $85: R123, R104. -/
  | staZp (p : Byte)
  /-- `STX $xx`, opcode $86: R124, R104. -/
  | stxZp (p : Byte)
  /-- `DEY`, opcode $88: R156, R101. -/
  | dey
  /-- `TXA`, opcode $8A: R132, R101. -/
  | txa
  /-- `STY $xxxx`, opcode $8C: R125, R107. -/
  | styAbs (a : Addr)
  /-- `STA $xxxx`, opcode $8D: R123, R107. -/
  | staAbs (a : Addr)
  /-- `STX $xxxx`, opcode $8E: R124, R107. -/
  | stxAbs (a : Addr)
  /-- `BCC label`, opcode $90: R186, R113. -/
  | bcc (disp : Int)
  /-- `STA ($xx),Y`, opcode $91: R123, R112. -/
  | staIndY (p : Byte)
  /-- `STY $xx,X`, opcode $94: R125, R105. -/
  | styZpX (p : Byte)
  /-- `STA $xx,X`, opcode $95: R123, R105. -/
  | staZpX (p : Byte)
  /-- `STX $xx,Y`, opcode $96: R124, R106. -/
  | stxZpY (p : Byte)
  /-- `TYA`, opcode $98: R133, R101. -/
  | tya
  /-- `STA $xxxx,Y`, opcode $99: R123, R109. -/
  | staAbsY (a : Addr)
  /-- `TXS`, opcode $9A: R135, R101. -/
  | txs
  /-- `STA $xxxx,X`, opcode $9D: R123, R108. -/
  | staAbsX (a : Addr)
  /-- `LDY #$xx`, opcode $A0: R122, R103. -/
  | ldyImm (m : Byte)
  /-- `LDA ($xx,X)`, opcode $A1: R120, R111. -/
  | ldaIndX (p : Byte)
  /-- `LDX #$xx`, opcode $A2: R121, R103. -/
  | ldxImm (m : Byte)
  /-- `LDY $xx`, opcode $A4: R122, R104. -/
  | ldyZp (p : Byte)
  /-- `LDA $xx`, opcode $A5: R120, R104. -/
  | ldaZp (p : Byte)
  /-- `LDX $xx`, opcode $A6: R121, R104. -/
  | ldxZp (p : Byte)
  /-- `TAY`, opcode $A8: R131, R101. -/
  | tay
  /-- `LDA #$xx`, opcode $A9: R120, R103. -/
  | ldaImm (m : Byte)
  /-- `TAX`, opcode $AA: R130, R101. -/
  | tax
  /-- `LDY $xxxx`, opcode $AC: R122, R107. -/
  | ldyAbs (a : Addr)
  /-- `LDA $xxxx`, opcode $AD: R120, R107. -/
  | ldaAbs (a : Addr)
  /-- `LDX $xxxx`, opcode $AE: R121, R107. -/
  | ldxAbs (a : Addr)
  /-- `BCS label`, opcode $B0: R187, R113. -/
  | bcs (disp : Int)
  /-- `LDA ($xx),Y`, opcode $B1: R120, R112. -/
  | ldaIndY (p : Byte)
  /-- `LDY $xx,X`, opcode $B4: R122, R105. -/
  | ldyZpX (p : Byte)
  /-- `LDA $xx,X`, opcode $B5: R120, R105. -/
  | ldaZpX (p : Byte)
  /-- `LDX $xx,Y`, opcode $B6: R121, R106. -/
  | ldxZpY (p : Byte)
  /-- `CLV`, opcode $B8: R206, R101. -/
  | clv
  /-- `LDA $xxxx,Y`, opcode $B9: R120, R109. -/
  | ldaAbsY (a : Addr)
  /-- `TSX`, opcode $BA: R134, R101. -/
  | tsx
  /-- `LDY $xxxx,X`, opcode $BC: R122, R108. -/
  | ldyAbsX (a : Addr)
  /-- `LDA $xxxx,X`, opcode $BD: R120, R108. -/
  | ldaAbsX (a : Addr)
  /-- `LDX $xxxx,Y`, opcode $BE: R121, R109. -/
  | ldxAbsY (a : Addr)
  /-- `CPY #$xx`, opcode $C0: R150, R103. -/
  | cpyImm (m : Byte)
  /-- `CMP ($xx,X)`, opcode $C1: R148, R111. -/
  | cmpIndX (p : Byte)
  /-- `CPY $xx`, opcode $C4: R150, R104. -/
  | cpyZp (p : Byte)
  /-- `CMP $xx`, opcode $C5: R148, R104. -/
  | cmpZp (p : Byte)
  /-- `DEC $xx`, opcode $C6: R152, R104. -/
  | decZp (p : Byte)
  /-- `INY`, opcode $C8: R155, R101. -/
  | iny
  /-- `CMP #$xx`, opcode $C9: R148, R103. -/
  | cmpImm (m : Byte)
  /-- `DEX`, opcode $CA: R154, R101. -/
  | dex
  /-- `CPY $xxxx`, opcode $CC: R150, R107. -/
  | cpyAbs (a : Addr)
  /-- `CMP $xxxx`, opcode $CD: R148, R107. -/
  | cmpAbs (a : Addr)
  /-- `DEC $xxxx`, opcode $CE: R152, R107. -/
  | decAbs (a : Addr)
  /-- `BNE label`, opcode $D0: R189, R113. -/
  | bne (disp : Int)
  /-- `CMP ($xx),Y`, opcode $D1: R148, R112. -/
  | cmpIndY (p : Byte)
  /-- `CMP $xx,X`, opcode $D5: R148, R105. -/
  | cmpZpX (p : Byte)
  /-- `DEC $xx,X`, opcode $D6: R152, R105. -/
  | decZpX (p : Byte)
  /-- `CLD`, opcode $D8: R204, R101. -/
  | cld
  /-- `CMP $xxxx,Y`, opcode $D9: R148, R109. -/
  | cmpAbsY (a : Addr)
  /-- `CMP $xxxx,X`, opcode $DD: R148, R108. -/
  | cmpAbsX (a : Addr)
  /-- `DEC $xxxx,X`, opcode $DE: R152, R108. -/
  | decAbsX (a : Addr)
  /-- `CPX #$xx`, opcode $E0: R149, R103. -/
  | cpxImm (m : Byte)
  /-- `SBC ($xx,X)`, opcode $E1: R147, R111. -/
  | sbcIndX (p : Byte)
  /-- `CPX $xx`, opcode $E4: R149, R104. -/
  | cpxZp (p : Byte)
  /-- `SBC $xx`, opcode $E5: R147, R104. -/
  | sbcZp (p : Byte)
  /-- `INC $xx`, opcode $E6: R151, R104. -/
  | incZp (p : Byte)
  /-- `INX`, opcode $E8: R153, R101. -/
  | inx
  /-- `SBC #$xx`, opcode $E9: R147, R103. -/
  | sbcImm (m : Byte)
  /-- `NOP`, opcode $EA: R207, R101. -/
  | nop
  /-- `CPX $xxxx`, opcode $EC: R149, R107. -/
  | cpxAbs (a : Addr)
  /-- `SBC $xxxx`, opcode $ED: R147, R107. -/
  | sbcAbs (a : Addr)
  /-- `INC $xxxx`, opcode $EE: R151, R107. -/
  | incAbs (a : Addr)
  /-- `BEQ label`, opcode $F0: R188, R113. -/
  | beq (disp : Int)
  /-- `SBC ($xx),Y`, opcode $F1: R147, R112. -/
  | sbcIndY (p : Byte)
  /-- `SBC $xx,X`, opcode $F5: R147, R105. -/
  | sbcZpX (p : Byte)
  /-- `INC $xx,X`, opcode $F6: R151, R105. -/
  | incZpX (p : Byte)
  /-- `SED`, opcode $F8: R205, R101. -/
  | sed
  /-- `SBC $xxxx,Y`, opcode $F9: R147, R109. -/
  | sbcAbsY (a : Addr)
  /-- `SBC $xxxx,X`, opcode $FD: R147, R108. -/
  | sbcAbsX (a : Addr)
  /-- `INC $xxxx,X`, opcode $FE: R151, R108. -/
  | incAbsX (a : Addr)
deriving DecidableEq, Repr

end Sys2Proof
end

