-- ==== Sys2Proof/WellFormed.lean ====
section
/-! DEFINITION. Well-formed instructions. An operand byte or address of the right width is always legal
(20_memory.md R51: no alignment); the one check is the range of a branch displacement, -128..+127
(30_encoding.md R87), which an assembler enforces too (R93). -/

namespace Sys2Proof

/-- A branch displacement that one operand byte can hold (R87). -/
def dispInRange (disp : Int) : Bool := decide (-128 ≤ disp) && decide (disp ≤ 127)

/-- The instruction can be encoded: a branch's displacement is in range, every other operand is legal as it is. -/
def Instr.wf : Instr → Bool
  | .bpl disp => dispInRange disp
  | .bmi disp => dispInRange disp
  | .bvc disp => dispInRange disp
  | .bvs disp => dispInRange disp
  | .bcc disp => dispInRange disp
  | .bcs disp => dispInRange disp
  | .bne disp => dispInRange disp
  | .beq disp => dispInRange disp
  | .brk | .oraIndX _ | .oraZp _ | .aslZp _ | .php | .oraImm _ | .aslAcc | .oraAbs _
  | .aslAbs _ | .oraIndY _ | .oraZpX _ | .aslZpX _ | .clc | .oraAbsY _ | .oraAbsX _ | .aslAbsX _
  | .jsr _ | .andIndX _ | .bitZp _ | .andZp _ | .rolZp _ | .plp | .andImm _ | .rolAcc
  | .bitAbs _ | .andAbs _ | .rolAbs _ | .andIndY _ | .andZpX _ | .rolZpX _ | .sec | .andAbsY _
  | .andAbsX _ | .rolAbsX _ | .rti | .eorIndX _ | .eorZp _ | .lsrZp _ | .pha | .eorImm _
  | .lsrAcc | .jmpAbs _ | .eorAbs _ | .lsrAbs _ | .eorIndY _ | .eorZpX _ | .lsrZpX _ | .cli
  | .eorAbsY _ | .eorAbsX _ | .lsrAbsX _ | .rts | .adcIndX _ | .adcZp _ | .rorZp _ | .pla
  | .adcImm _ | .rorAcc | .jmpInd _ | .adcAbs _ | .rorAbs _ | .adcIndY _ | .adcZpX _ | .rorZpX _
  | .sei | .adcAbsY _ | .adcAbsX _ | .rorAbsX _ | .staIndX _ | .styZp _ | .staZp _ | .stxZp _
  | .dey | .txa | .styAbs _ | .staAbs _ | .stxAbs _ | .staIndY _ | .styZpX _ | .staZpX _
  | .stxZpY _ | .tya | .staAbsY _ | .txs | .staAbsX _ | .ldyImm _ | .ldaIndX _ | .ldxImm _
  | .ldyZp _ | .ldaZp _ | .ldxZp _ | .tay | .ldaImm _ | .tax | .ldyAbs _ | .ldaAbs _
  | .ldxAbs _ | .ldaIndY _ | .ldyZpX _ | .ldaZpX _ | .ldxZpY _ | .clv | .ldaAbsY _ | .tsx
  | .ldyAbsX _ | .ldaAbsX _ | .ldxAbsY _ | .cpyImm _ | .cmpIndX _ | .cpyZp _ | .cmpZp _ | .decZp _
  | .iny | .cmpImm _ | .dex | .cpyAbs _ | .cmpAbs _ | .decAbs _ | .cmpIndY _ | .cmpZpX _
  | .decZpX _ | .cld | .cmpAbsY _ | .cmpAbsX _ | .decAbsX _ | .cpxImm _ | .sbcIndX _ | .cpxZp _
  | .sbcZp _ | .incZp _ | .inx | .sbcImm _ | .nop | .cpxAbs _ | .sbcAbs _ | .incAbs _
  | .sbcIndY _ | .sbcZpX _ | .incZpX _ | .sed | .sbcAbsY _ | .sbcAbsX _ | .incAbsX _ => true

end Sys2Proof
end

