-- ==== Sys2Proof/Decode.lean ====
section
/-! DEFINITION. Decoding and encoding (30_encoding.md): the opcode matrix of R89 row by row, the decoder
(total on any bytes, rejecting by name), the encoder, the addressing mode and length of each instruction
(R80, R100), and the assembler conventions of R92 and R93. -/

namespace Sys2Proof

/-- A 16-bit quantity from its two bytes: the byte at the lower address is the less significant (R50, R86). -/
def wordOf (lowByte highByte : Byte) : Addr := highByte ++ lowByte

/-- `lo(w)`, bits 7..0 of a 16-bit value (00_scope.md section 6). -/
def lo (w : Addr) : Byte := w.extractLsb' 0 8

/-- `hi(w)`, bits 15..8 of a 16-bit value (00_scope.md section 6). -/
def hi (w : Addr) : Byte := w.extractLsb' 8 8

/-- What an opcode byte selects: a format of R81 and the instruction it makes of its operand bytes. -/
inductive Form where
  /-- One of the 105 undefined opcodes (R90). -/
  | undef
  /-- F1: the opcode byte alone. -/
  | f1 (i : Instr)
  /-- F2 with a byte operand. -/
  | f2 (mk : Byte → Instr)
  /-- F2 with a signed displacement (R87). -/
  | rel (mk : Int → Instr)
  /-- F3: a 16-bit operand, low byte first (R86). -/
  | f3 (mk : Addr → Instr)

/-- Row 0x of the matrix of R89. -/
def opcodeRow0 : List Form :=
  [.f1 .brk, .f2 .oraIndX, .undef, .undef, .undef, .f2 .oraZp, .f2 .aslZp, .undef,
   .f1 .php, .f2 .oraImm, .f1 .aslAcc, .undef, .undef, .f3 .oraAbs, .f3 .aslAbs, .undef]

/-- Row 1x of the matrix of R89. -/
def opcodeRow1 : List Form :=
  [.rel .bpl, .f2 .oraIndY, .undef, .undef, .undef, .f2 .oraZpX, .f2 .aslZpX, .undef,
   .f1 .clc, .f3 .oraAbsY, .undef, .undef, .undef, .f3 .oraAbsX, .f3 .aslAbsX, .undef]

/-- Row 2x of the matrix of R89. -/
def opcodeRow2 : List Form :=
  [.f3 .jsr, .f2 .andIndX, .undef, .undef, .f2 .bitZp, .f2 .andZp, .f2 .rolZp, .undef,
   .f1 .plp, .f2 .andImm, .f1 .rolAcc, .undef, .f3 .bitAbs, .f3 .andAbs, .f3 .rolAbs, .undef]

/-- Row 3x of the matrix of R89. -/
def opcodeRow3 : List Form :=
  [.rel .bmi, .f2 .andIndY, .undef, .undef, .undef, .f2 .andZpX, .f2 .rolZpX, .undef,
   .f1 .sec, .f3 .andAbsY, .undef, .undef, .undef, .f3 .andAbsX, .f3 .rolAbsX, .undef]

/-- Row 4x of the matrix of R89. -/
def opcodeRow4 : List Form :=
  [.f1 .rti, .f2 .eorIndX, .undef, .undef, .undef, .f2 .eorZp, .f2 .lsrZp, .undef,
   .f1 .pha, .f2 .eorImm, .f1 .lsrAcc, .undef, .f3 .jmpAbs, .f3 .eorAbs, .f3 .lsrAbs, .undef]

/-- Row 5x of the matrix of R89. -/
def opcodeRow5 : List Form :=
  [.rel .bvc, .f2 .eorIndY, .undef, .undef, .undef, .f2 .eorZpX, .f2 .lsrZpX, .undef,
   .f1 .cli, .f3 .eorAbsY, .undef, .undef, .undef, .f3 .eorAbsX, .f3 .lsrAbsX, .undef]

/-- Row 6x of the matrix of R89. -/
def opcodeRow6 : List Form :=
  [.f1 .rts, .f2 .adcIndX, .undef, .undef, .undef, .f2 .adcZp, .f2 .rorZp, .undef,
   .f1 .pla, .f2 .adcImm, .f1 .rorAcc, .undef, .f3 .jmpInd, .f3 .adcAbs, .f3 .rorAbs, .undef]

/-- Row 7x of the matrix of R89. -/
def opcodeRow7 : List Form :=
  [.rel .bvs, .f2 .adcIndY, .undef, .undef, .undef, .f2 .adcZpX, .f2 .rorZpX, .undef,
   .f1 .sei, .f3 .adcAbsY, .undef, .undef, .undef, .f3 .adcAbsX, .f3 .rorAbsX, .undef]

/-- Row 8x of the matrix of R89. -/
def opcodeRow8 : List Form :=
  [.undef, .f2 .staIndX, .undef, .undef, .f2 .styZp, .f2 .staZp, .f2 .stxZp, .undef,
   .f1 .dey, .undef, .f1 .txa, .undef, .f3 .styAbs, .f3 .staAbs, .f3 .stxAbs, .undef]

/-- Row 9x of the matrix of R89. -/
def opcodeRow9 : List Form :=
  [.rel .bcc, .f2 .staIndY, .undef, .undef, .f2 .styZpX, .f2 .staZpX, .f2 .stxZpY, .undef,
   .f1 .tya, .f3 .staAbsY, .f1 .txs, .undef, .undef, .f3 .staAbsX, .undef, .undef]

/-- Row Ax of the matrix of R89. -/
def opcodeRowA : List Form :=
  [.f2 .ldyImm, .f2 .ldaIndX, .f2 .ldxImm, .undef, .f2 .ldyZp, .f2 .ldaZp, .f2 .ldxZp, .undef,
   .f1 .tay, .f2 .ldaImm, .f1 .tax, .undef, .f3 .ldyAbs, .f3 .ldaAbs, .f3 .ldxAbs, .undef]

/-- Row Bx of the matrix of R89. -/
def opcodeRowB : List Form :=
  [.rel .bcs, .f2 .ldaIndY, .undef, .undef, .f2 .ldyZpX, .f2 .ldaZpX, .f2 .ldxZpY, .undef,
   .f1 .clv, .f3 .ldaAbsY, .f1 .tsx, .undef, .f3 .ldyAbsX, .f3 .ldaAbsX, .f3 .ldxAbsY, .undef]

/-- Row Cx of the matrix of R89. -/
def opcodeRowC : List Form :=
  [.f2 .cpyImm, .f2 .cmpIndX, .undef, .undef, .f2 .cpyZp, .f2 .cmpZp, .f2 .decZp, .undef,
   .f1 .iny, .f2 .cmpImm, .f1 .dex, .undef, .f3 .cpyAbs, .f3 .cmpAbs, .f3 .decAbs, .undef]

/-- Row Dx of the matrix of R89. -/
def opcodeRowD : List Form :=
  [.rel .bne, .f2 .cmpIndY, .undef, .undef, .undef, .f2 .cmpZpX, .f2 .decZpX, .undef,
   .f1 .cld, .f3 .cmpAbsY, .undef, .undef, .undef, .f3 .cmpAbsX, .f3 .decAbsX, .undef]

/-- Row Ex of the matrix of R89. -/
def opcodeRowE : List Form :=
  [.f2 .cpxImm, .f2 .sbcIndX, .undef, .undef, .f2 .cpxZp, .f2 .sbcZp, .f2 .incZp, .undef,
   .f1 .inx, .f2 .sbcImm, .f1 .nop, .undef, .f3 .cpxAbs, .f3 .sbcAbs, .f3 .incAbs, .undef]

/-- Row Fx of the matrix of R89. -/
def opcodeRowF : List Form :=
  [.rel .beq, .f2 .sbcIndY, .undef, .undef, .undef, .f2 .sbcZpX, .f2 .incZpX, .undef,
   .f1 .sed, .f3 .sbcAbsY, .undef, .undef, .undef, .f3 .sbcAbsX, .f3 .incAbsX, .undef]

/-- The opcode matrix of R89: sixteen rows (high hex digit) of sixteen cells (low hex digit). -/
def opcodeMatrix : List (List Form) :=
  [opcodeRow0, opcodeRow1, opcodeRow2, opcodeRow3, opcodeRow4, opcodeRow5, opcodeRow6, opcodeRow7]
  ++ [opcodeRow8, opcodeRow9, opcodeRowA, opcodeRowB, opcodeRowC, opcodeRowD, opcodeRowE, opcodeRowF]

/-- The cell of an opcode byte; decode is total (R82). -/
def formOf (op : Byte) : Form := (opcodeMatrix.getD (op.toNat / 16) []).getD (op.toNat % 16) .undef

/-- How many bytes the instruction has, which the opcode byte alone decides (R82); none where it is undefined. -/
def opcodeLength (op : Byte) : Option Nat :=
  match formOf op with
  | .undef => none
  | .f1 _ => some 1
  | .f2 _ => some 2
  | .rel _ => some 2
  | .f3 _ => some 3

/-- What the decoder answers. -/
inductive DecodeResult where
  /-- The instruction and the bytes after it. -/
  | ok (i : Instr) (rest : List Byte)
  /-- The first byte is one of the 105 undefined opcodes (R90). -/
  | undefinedOpcode (op : Byte)
  /-- The bytes end before the instruction does. -/
  | truncated
deriving DecidableEq, Repr

/-- The decoder (R82, R85 to R87): the opcode byte selects the form, the form takes its operand bytes. -/
def decode : List Byte → DecodeResult
  | [] => .truncated
  | op :: rest =>
    match formOf op with
    | .undef => .undefinedOpcode op
    | .f1 i => .ok i rest
    | .f2 mk =>
      match rest with
      | b1 :: tail => .ok (mk b1) tail
      | [] => .truncated
    | .rel mk =>
      match rest with
      | b1 :: tail => .ok (mk b1.toInt) tail
      | [] => .truncated
    | .f3 mk =>
      match rest with
      | b1 :: b2 :: tail => .ok (mk (wordOf b1 b2)) tail
      | _ => .truncated

/-- The operand byte of a branch: the displacement in two's complement (R87). -/
def dispByte (disp : Int) : Byte := BitVec.ofInt 8 disp

/-- The encoder: the bytes of an instruction in increasing address order (R81, R86, R89). -/
def encode : Instr → List Byte
  | .brk => [0x00]
  | .oraIndX p => [0x01, p]
  | .oraZp p => [0x05, p]
  | .aslZp p => [0x06, p]
  | .php => [0x08]
  | .oraImm m => [0x09, m]
  | .aslAcc => [0x0A]
  | .oraAbs a => [0x0D, lo a, hi a]
  | .aslAbs a => [0x0E, lo a, hi a]
  | .bpl disp => [0x10, dispByte disp]
  | .oraIndY p => [0x11, p]
  | .oraZpX p => [0x15, p]
  | .aslZpX p => [0x16, p]
  | .clc => [0x18]
  | .oraAbsY a => [0x19, lo a, hi a]
  | .oraAbsX a => [0x1D, lo a, hi a]
  | .aslAbsX a => [0x1E, lo a, hi a]
  | .jsr a => [0x20, lo a, hi a]
  | .andIndX p => [0x21, p]
  | .bitZp p => [0x24, p]
  | .andZp p => [0x25, p]
  | .rolZp p => [0x26, p]
  | .plp => [0x28]
  | .andImm m => [0x29, m]
  | .rolAcc => [0x2A]
  | .bitAbs a => [0x2C, lo a, hi a]
  | .andAbs a => [0x2D, lo a, hi a]
  | .rolAbs a => [0x2E, lo a, hi a]
  | .bmi disp => [0x30, dispByte disp]
  | .andIndY p => [0x31, p]
  | .andZpX p => [0x35, p]
  | .rolZpX p => [0x36, p]
  | .sec => [0x38]
  | .andAbsY a => [0x39, lo a, hi a]
  | .andAbsX a => [0x3D, lo a, hi a]
  | .rolAbsX a => [0x3E, lo a, hi a]
  | .rti => [0x40]
  | .eorIndX p => [0x41, p]
  | .eorZp p => [0x45, p]
  | .lsrZp p => [0x46, p]
  | .pha => [0x48]
  | .eorImm m => [0x49, m]
  | .lsrAcc => [0x4A]
  | .jmpAbs a => [0x4C, lo a, hi a]
  | .eorAbs a => [0x4D, lo a, hi a]
  | .lsrAbs a => [0x4E, lo a, hi a]
  | .bvc disp => [0x50, dispByte disp]
  | .eorIndY p => [0x51, p]
  | .eorZpX p => [0x55, p]
  | .lsrZpX p => [0x56, p]
  | .cli => [0x58]
  | .eorAbsY a => [0x59, lo a, hi a]
  | .eorAbsX a => [0x5D, lo a, hi a]
  | .lsrAbsX a => [0x5E, lo a, hi a]
  | .rts => [0x60]
  | .adcIndX p => [0x61, p]
  | .adcZp p => [0x65, p]
  | .rorZp p => [0x66, p]
  | .pla => [0x68]
  | .adcImm m => [0x69, m]
  | .rorAcc => [0x6A]
  | .jmpInd a => [0x6C, lo a, hi a]
  | .adcAbs a => [0x6D, lo a, hi a]
  | .rorAbs a => [0x6E, lo a, hi a]
  | .bvs disp => [0x70, dispByte disp]
  | .adcIndY p => [0x71, p]
  | .adcZpX p => [0x75, p]
  | .rorZpX p => [0x76, p]
  | .sei => [0x78]
  | .adcAbsY a => [0x79, lo a, hi a]
  | .adcAbsX a => [0x7D, lo a, hi a]
  | .rorAbsX a => [0x7E, lo a, hi a]
  | .staIndX p => [0x81, p]
  | .styZp p => [0x84, p]
  | .staZp p => [0x85, p]
  | .stxZp p => [0x86, p]
  | .dey => [0x88]
  | .txa => [0x8A]
  | .styAbs a => [0x8C, lo a, hi a]
  | .staAbs a => [0x8D, lo a, hi a]
  | .stxAbs a => [0x8E, lo a, hi a]
  | .bcc disp => [0x90, dispByte disp]
  | .staIndY p => [0x91, p]
  | .styZpX p => [0x94, p]
  | .staZpX p => [0x95, p]
  | .stxZpY p => [0x96, p]
  | .tya => [0x98]
  | .staAbsY a => [0x99, lo a, hi a]
  | .txs => [0x9A]
  | .staAbsX a => [0x9D, lo a, hi a]
  | .ldyImm m => [0xA0, m]
  | .ldaIndX p => [0xA1, p]
  | .ldxImm m => [0xA2, m]
  | .ldyZp p => [0xA4, p]
  | .ldaZp p => [0xA5, p]
  | .ldxZp p => [0xA6, p]
  | .tay => [0xA8]
  | .ldaImm m => [0xA9, m]
  | .tax => [0xAA]
  | .ldyAbs a => [0xAC, lo a, hi a]
  | .ldaAbs a => [0xAD, lo a, hi a]
  | .ldxAbs a => [0xAE, lo a, hi a]
  | .bcs disp => [0xB0, dispByte disp]
  | .ldaIndY p => [0xB1, p]
  | .ldyZpX p => [0xB4, p]
  | .ldaZpX p => [0xB5, p]
  | .ldxZpY p => [0xB6, p]
  | .clv => [0xB8]
  | .ldaAbsY a => [0xB9, lo a, hi a]
  | .tsx => [0xBA]
  | .ldyAbsX a => [0xBC, lo a, hi a]
  | .ldaAbsX a => [0xBD, lo a, hi a]
  | .ldxAbsY a => [0xBE, lo a, hi a]
  | .cpyImm m => [0xC0, m]
  | .cmpIndX p => [0xC1, p]
  | .cpyZp p => [0xC4, p]
  | .cmpZp p => [0xC5, p]
  | .decZp p => [0xC6, p]
  | .iny => [0xC8]
  | .cmpImm m => [0xC9, m]
  | .dex => [0xCA]
  | .cpyAbs a => [0xCC, lo a, hi a]
  | .cmpAbs a => [0xCD, lo a, hi a]
  | .decAbs a => [0xCE, lo a, hi a]
  | .bne disp => [0xD0, dispByte disp]
  | .cmpIndY p => [0xD1, p]
  | .cmpZpX p => [0xD5, p]
  | .decZpX p => [0xD6, p]
  | .cld => [0xD8]
  | .cmpAbsY a => [0xD9, lo a, hi a]
  | .cmpAbsX a => [0xDD, lo a, hi a]
  | .decAbsX a => [0xDE, lo a, hi a]
  | .cpxImm m => [0xE0, m]
  | .sbcIndX p => [0xE1, p]
  | .cpxZp p => [0xE4, p]
  | .sbcZp p => [0xE5, p]
  | .incZp p => [0xE6, p]
  | .inx => [0xE8]
  | .sbcImm m => [0xE9, m]
  | .nop => [0xEA]
  | .cpxAbs a => [0xEC, lo a, hi a]
  | .sbcAbs a => [0xED, lo a, hi a]
  | .incAbs a => [0xEE, lo a, hi a]
  | .beq disp => [0xF0, dispByte disp]
  | .sbcIndY p => [0xF1, p]
  | .sbcZpX p => [0xF5, p]
  | .incZpX p => [0xF6, p]
  | .sed => [0xF8]
  | .sbcAbsY a => [0xF9, lo a, hi a]
  | .sbcAbsX a => [0xFD, lo a, hi a]
  | .incAbsX a => [0xFE, lo a, hi a]

/-- The bytes of an instruction whose bits are `w`, the first byte in bits 7..0, as spec/opcode_table.json numbers
them: `nbits` bits are given, every higher bit is 0, and three bytes (the longest instruction) are laid out. -/
def bytesOfTableWord (nbits w : Nat) : List Byte :=
  let v := w % 2 ^ nbits
  [BitVec.ofNat 8 v, BitVec.ofNat 8 (v / 256), BitVec.ofNat 8 (v / 65536)]

/-- The instruction the decoder reads from a table word; none where it refuses. -/
def decodeTableWord (nbits w : Nat) : Option Instr :=
  match decode (bytesOfTableWord nbits w) with
  | .ok i _ => some i
  | .undefinedOpcode _ => none
  | .truncated => none

/-- The 13 addressing modes (R80, R100). -/
inductive Mode where
  | implied | accumulator | immediate | zeroPage | zeroPageX | zeroPageY | absolute | absoluteX | absoluteY
  | indirect | indirectX | indirectY | relative
deriving DecidableEq, Repr

/-- The length of an instruction of each mode, the Bytes column of R80. -/
def modeLength : Mode → Nat
  | .implied => 1
  | .accumulator => 1
  | .immediate => 2
  | .zeroPage => 2
  | .zeroPageX => 2
  | .zeroPageY => 2
  | .absolute => 3
  | .absoluteX => 3
  | .absoluteY => 3
  | .indirect => 3
  | .indirectX => 2
  | .indirectY => 2
  | .relative => 2

/-- The addressing mode of an instruction (R89, R114). -/
def modeOf : Instr → Mode
  | .brk | .php | .clc | .plp | .sec | .rti | .pha | .cli
  | .rts | .pla | .sei | .dey | .txa | .tya | .txs | .tay
  | .tax | .clv | .tsx | .iny | .dex | .cld | .inx | .nop
  | .sed => .implied
  | .oraIndX _ | .andIndX _ | .eorIndX _ | .adcIndX _ | .staIndX _ | .ldaIndX _ | .cmpIndX _ | .sbcIndX _ => .indirectX
  | .oraZp _ | .aslZp _ | .bitZp _ | .andZp _ | .rolZp _ | .eorZp _ | .lsrZp _ | .adcZp _
  | .rorZp _ | .styZp _ | .staZp _ | .stxZp _ | .ldyZp _ | .ldaZp _ | .ldxZp _ | .cpyZp _
  | .cmpZp _ | .decZp _ | .cpxZp _ | .sbcZp _ | .incZp _ => .zeroPage
  | .oraImm _ | .andImm _ | .eorImm _ | .adcImm _ | .ldyImm _ | .ldxImm _ | .ldaImm _ | .cpyImm _
  | .cmpImm _ | .cpxImm _ | .sbcImm _ => .immediate
  | .aslAcc | .rolAcc | .lsrAcc | .rorAcc => .accumulator
  | .oraAbs _ | .aslAbs _ | .jsr _ | .bitAbs _ | .andAbs _ | .rolAbs _ | .jmpAbs _ | .eorAbs _
  | .lsrAbs _ | .adcAbs _ | .rorAbs _ | .styAbs _ | .staAbs _ | .stxAbs _ | .ldyAbs _ | .ldaAbs _
  | .ldxAbs _ | .cpyAbs _ | .cmpAbs _ | .decAbs _ | .cpxAbs _ | .sbcAbs _ | .incAbs _ => .absolute
  | .bpl _ | .bmi _ | .bvc _ | .bvs _ | .bcc _ | .bcs _ | .bne _ | .beq _ => .relative
  | .oraIndY _ | .andIndY _ | .eorIndY _ | .adcIndY _ | .staIndY _ | .ldaIndY _ | .cmpIndY _ | .sbcIndY _ => .indirectY
  | .oraZpX _ | .aslZpX _ | .andZpX _ | .rolZpX _ | .eorZpX _ | .lsrZpX _ | .adcZpX _ | .rorZpX _
  | .styZpX _ | .staZpX _ | .ldyZpX _ | .ldaZpX _ | .cmpZpX _ | .decZpX _ | .sbcZpX _ | .incZpX _ => .zeroPageX
  | .oraAbsY _ | .andAbsY _ | .eorAbsY _ | .adcAbsY _ | .staAbsY _ | .ldaAbsY _ | .ldxAbsY _ | .cmpAbsY _
  | .sbcAbsY _ => .absoluteY
  | .oraAbsX _ | .aslAbsX _ | .andAbsX _ | .rolAbsX _ | .eorAbsX _ | .lsrAbsX _ | .adcAbsX _ | .rorAbsX _
  | .staAbsX _ | .ldyAbsX _ | .ldaAbsX _ | .cmpAbsX _ | .decAbsX _ | .sbcAbsX _ | .incAbsX _ => .absoluteX
  | .jmpInd _ => .indirect
  | .stxZpY _ | .ldxZpY _ => .zeroPageY

/-- The length of an instruction in bytes (R80). -/
def lengthOf (i : Instr) : Nat := modeLength (modeOf i)

/-- The mnemonic, three upper-case letters (R92). -/
def mnemonicOf : Instr → String
  | .adcIndX _ | .adcZp _ | .adcImm _ | .adcAbs _ | .adcIndY _ | .adcZpX _ | .adcAbsY _ | .adcAbsX _ => "ADC"
  | .andIndX _ | .andZp _ | .andImm _ | .andAbs _ | .andIndY _ | .andZpX _ | .andAbsY _ | .andAbsX _ => "AND"
  | .aslZp _ | .aslAcc | .aslAbs _ | .aslZpX _ | .aslAbsX _ => "ASL"
  | .bcc _ => "BCC"
  | .bcs _ => "BCS"
  | .beq _ => "BEQ"
  | .bitZp _ | .bitAbs _ => "BIT"
  | .bmi _ => "BMI"
  | .bne _ => "BNE"
  | .bpl _ => "BPL"
  | .brk => "BRK"
  | .bvc _ => "BVC"
  | .bvs _ => "BVS"
  | .clc => "CLC"
  | .cld => "CLD"
  | .cli => "CLI"
  | .clv => "CLV"
  | .cmpIndX _ | .cmpZp _ | .cmpImm _ | .cmpAbs _ | .cmpIndY _ | .cmpZpX _ | .cmpAbsY _ | .cmpAbsX _ => "CMP"
  | .cpxImm _ | .cpxZp _ | .cpxAbs _ => "CPX"
  | .cpyImm _ | .cpyZp _ | .cpyAbs _ => "CPY"
  | .decZp _ | .decAbs _ | .decZpX _ | .decAbsX _ => "DEC"
  | .dex => "DEX"
  | .dey => "DEY"
  | .eorIndX _ | .eorZp _ | .eorImm _ | .eorAbs _ | .eorIndY _ | .eorZpX _ | .eorAbsY _ | .eorAbsX _ => "EOR"
  | .incZp _ | .incAbs _ | .incZpX _ | .incAbsX _ => "INC"
  | .inx => "INX"
  | .iny => "INY"
  | .jmpAbs _ | .jmpInd _ => "JMP"
  | .jsr _ => "JSR"
  | .ldaIndX _ | .ldaZp _ | .ldaImm _ | .ldaAbs _ | .ldaIndY _ | .ldaZpX _ | .ldaAbsY _ | .ldaAbsX _ => "LDA"
  | .ldxImm _ | .ldxZp _ | .ldxAbs _ | .ldxZpY _ | .ldxAbsY _ => "LDX"
  | .ldyImm _ | .ldyZp _ | .ldyAbs _ | .ldyZpX _ | .ldyAbsX _ => "LDY"
  | .lsrZp _ | .lsrAcc | .lsrAbs _ | .lsrZpX _ | .lsrAbsX _ => "LSR"
  | .nop => "NOP"
  | .oraIndX _ | .oraZp _ | .oraImm _ | .oraAbs _ | .oraIndY _ | .oraZpX _ | .oraAbsY _ | .oraAbsX _ => "ORA"
  | .pha => "PHA"
  | .php => "PHP"
  | .pla => "PLA"
  | .plp => "PLP"
  | .rolZp _ | .rolAcc | .rolAbs _ | .rolZpX _ | .rolAbsX _ => "ROL"
  | .rorZp _ | .rorAcc | .rorAbs _ | .rorZpX _ | .rorAbsX _ => "ROR"
  | .rti => "RTI"
  | .rts => "RTS"
  | .sbcIndX _ | .sbcZp _ | .sbcImm _ | .sbcAbs _ | .sbcIndY _ | .sbcZpX _ | .sbcAbsY _ | .sbcAbsX _ => "SBC"
  | .sec => "SEC"
  | .sed => "SED"
  | .sei => "SEI"
  | .staIndX _ | .staZp _ | .staAbs _ | .staIndY _ | .staZpX _ | .staAbsY _ | .staAbsX _ => "STA"
  | .stxZp _ | .stxAbs _ | .stxZpY _ => "STX"
  | .styZp _ | .styAbs _ | .styZpX _ => "STY"
  | .tax => "TAX"
  | .tay => "TAY"
  | .tsx => "TSX"
  | .txa => "TXA"
  | .txs => "TXS"
  | .tya => "TYA"

/-- One hexadecimal digit. -/
def hexDigit (n : Nat) : String :=
  ["0", "1", "2", "3", "4", "5", "6", "7", "8", "9", "A", "B", "C", "D", "E", "F"].getD n "?"

/-- A byte after `$`, two digits (R92, R93). -/
def hexByte (b : Byte) : String := "$" ++ hexDigit (b.toNat / 16) ++ hexDigit (b.toNat % 16)

/-- An address after `$`, four digits (R92, R93). -/
def hexAddr (a : Addr) : String :=
  hexByte (hi a) ++ hexDigit ((lo a).toNat / 16) ++ hexDigit ((lo a).toNat % 16)

/-- The operand in the source's syntax (R92), read from the instruction's own bytes; a branch is written with its
displacement byte, the `$xx` form of R92. -/
def operandText (mode : Mode) (operands : List Byte) : String :=
  match mode, operands with
  | .accumulator, _ => " A"
  | .immediate, [b1] => " #" ++ hexByte b1
  | .zeroPage, [b1] => " " ++ hexByte b1
  | .zeroPageX, [b1] => " " ++ hexByte b1 ++ ",X"
  | .zeroPageY, [b1] => " " ++ hexByte b1 ++ ",Y"
  | .absolute, [b1, b2] => " " ++ hexAddr (wordOf b1 b2)
  | .absoluteX, [b1, b2] => " " ++ hexAddr (wordOf b1 b2) ++ ",X"
  | .absoluteY, [b1, b2] => " " ++ hexAddr (wordOf b1 b2) ++ ",Y"
  | .indirect, [b1, b2] => " (" ++ hexAddr (wordOf b1 b2) ++ ")"
  | .indirectX, [b1] => " (" ++ hexByte b1 ++ ",X)"
  | .indirectY, [b1] => " (" ++ hexByte b1 ++ "),Y"
  | .relative, [b1] => " " ++ hexByte b1
  | _, _ => ""

/-- The instruction as the source writes it (R92). -/
def assemblyText (i : Instr) : String := mnemonicOf i ++ operandText (modeOf i) (encode i).tail

/-- The displacement the assembler puts in a branch at `pc0` to `label`: `label - (pc0 + 2)`, rejected outside
-128..+127 (R93). DESIGN CHOICE (log 42): the distance is taken modulo 65536, as the target of R87 is, so that a branch
between $FFFF and $0000 is accepted; R93 does not say. -/
def branchDisplacement (pc0 label : Addr) : Option Int :=
  let disp : Int := (label - (pc0 + 2)).toInt
  if dispInRange disp then some disp else none

end Sys2Proof
end

