-- ==== Sys2Proof/Config.lean ====
section
/-! DEFINITION. What the implementation fixes (the parameter table of 00_scope.md section 5) and the
free values: opaque constants with no body, each applied to the draw counter `State.fresh`, so that
nothing can be proved of their values. -/

namespace Sys2Proof.Config

/-- RAM_SIZE: 2KB of internal RAM (R19). -/
def ramSize : Nat := 2048
/-- WRAM_SIZE: 8KB of cartridge RAM (R20). -/
def wramSize : Nat := 8192
/-- PRG_SIZE: 256KB = 32 banks of 8KB (R370, R338). -/
def prgSize : Nat := 262144
/-- CHR_SIZE: 128KB = 128 banks of 1KB (R370, R342). -/
def chrSize : Nat := 131072
/-- OAM_SIZE: 64 sprites of 4 bytes (R22, R283). -/
def oamSize : Nat := 256
/-- 32 bytes of palette RAM (R22, R278). -/
def paletteSize : Nat := 32
/-- 2KB of nametable RAM, two pages of 1KB (R22, R277). -/
def nametableSize : Nat := 2048

/-- Scanlines per frame (R290). -/
def scanlinesPerFrame : Nat := 262
/-- PPU cycles per scanline (R290). -/
def dotsPerScanline : Nat := 341
/-- "PPU Clock: 5.369318 MHz (3× CPU)": PPU dots per CPU cycle (R290, R416). -/
def dotsPerCycle : Nat := 3
/-- The CPU clock in hertz, "1.789773 MHz" (R416). -/
def cpuClockHz : Nat := 1789773
/-- The PPU clock in hertz as printed, "5.369318 MHz" (R416, 90_conflicts.md C8). -/
def ppuClockHz : Nat := 5369318

/-- OPEN_BUS (D11, R57): the byte a read gives that nothing drives. A free value, log 9. -/
opaque openBus : Nat → BitVec 8

/-- Whether the rendering pipeline raises a sprite flag at this dot (R267). A free value, log 10. -/
opaque spriteFlag : Nat → Bool

/-- How many times PPU line A12 clocks the MMC3 counter where R351 gives no number. A free value, log 11. -/
opaque a12Clocks : Nat → Nat

/-- Whether a write to $2000, $2001, $2005 or $2006 during warm-up takes effect (R396). A free value, log 12. -/
opaque warmUpApplies : Nat → Bool

end Sys2Proof.Config
end

