-- ==== Sys2Proof/Machine/Memory.lean ====
section
/-! DEFINITION. A memory as plain data: a list of (address, byte) cells in one canonical form. Each of the
hardware's storages (RAM, WRAM, PRG and CHR ROM, nametables, palette, OAM) is one such list, keyed by the
index into that storage. -/

namespace Sys2Proof.Machine

/-- A storage: its listed cells, by strictly rising index. -/
abbrev Memory := List Host.Cell

/-- What an index that no cell lists reads as. DESIGN CHOICE, unsafe: log 2. -/
def unlistedByte : Byte := 0x00

/-- The byte at an index. -/
def Memory.read : Memory → Nat → Byte
  | [], _ => unlistedByte
  | (a, b) :: rest, k => if a = k then b else Memory.read rest k

/-- The memory with no cell for an index. -/
def Memory.erase : Memory → Nat → Memory
  | [], _ => []
  | (a, b) :: rest, k => if a = k then Memory.erase rest k else (a, b) :: Memory.erase rest k

/-- The memory with a cell put before the first higher index. -/
def Memory.insert : Memory → Nat → Byte → Memory
  | [], k, v => [(k, v)]
  | (a, b) :: rest, k, v => if k < a then (k, v) :: (a, b) :: rest else (a, b) :: Memory.insert rest k v

/-- The memory after a byte is stored; storing what an unlisted index reads as removes the cell. -/
def Memory.write (m : Memory) (k : Nat) (v : Byte) : Memory :=
  if v = unlistedByte then Memory.erase m k else Memory.insert (Memory.erase m k) k v

/-- Every cell's index is at least `low`, the indices rise strictly and stay below `size`, and no cell lists
the unlisted byte. -/
def Memory.wfFrom (low size : Nat) : Memory → Bool
  | [] => true
  | (a, b) :: rest =>
    decide (low ≤ a) && decide (a < size) && decide (b ≠ unlistedByte) && Memory.wfFrom (a + 1) size rest

/-- The canonical form of a storage of `size` bytes. -/
def Memory.wf (size : Nat) (m : Memory) : Bool := Memory.wfFrom 0 size m

/-- A storage filled from consecutive bytes starting at an index. -/
def Memory.ofBytes : Nat → List Byte → Memory
  | _, [] => []
  | k, b :: rest => if b = unlistedByte then Memory.ofBytes (k + 1) rest else (k, b) :: Memory.ofBytes (k + 1) rest

end Sys2Proof.Machine
end

