-- ==== Sys2Proof/Machine/State.lean ====
section
/-! DEFINITION. The machine's state as plain data (10_state.md), the reasons a step can stop, and the state
right after reset (R37, R386). -/

namespace Sys2Proof.Machine

/-- The CPU's six registers, P as its six stored flags (R10, R13), and the NMI latch (R18). -/
structure Cpu where
  /-- A, the accumulator (R10). -/
  a : Byte
  /-- X (R10). -/
  x : Byte
  /-- Y (R10). -/
  y : Byte
  /-- S, the stack pointer, an offset from $0100 (R12). -/
  sp : Byte
  /-- PC (R11). -/
  pc : Addr
  /-- N, bit 7 of P (R13). -/
  n : Bool
  /-- V, bit 6 of P (R13). -/
  v : Bool
  /-- D, bit 3 of P: stored, without effect on arithmetic (R13, D4). -/
  d : Bool
  /-- I, bit 2 of P: IRQ disable (R13). -/
  i : Bool
  /-- Z, bit 1 of P (R13). -/
  z : Bool
  /-- C, bit 0 of P (R13). -/
  c : Bool
  /-- `nmi_pending` (R18). -/
  nmiPending : Bool
deriving DecidableEq, Repr

/-- The PPU as its registers show it (R24 to R26) with its memories (R22) and its place in the frame (R290). -/
structure Ppu where
  /-- PPUCTRL (R24). -/
  ctrl : Byte
  /-- PPUMASK (R25). -/
  mask : Byte
  /-- PPUSTATUS bit 7 (R26). -/
  vblank : Bool
  /-- PPUSTATUS bit 6 (R26). -/
  sprite0Hit : Bool
  /-- PPUSTATUS bit 5 (R26). -/
  spriteOverflow : Bool
  /-- OAMADDR (R26). -/
  oamAddr : Byte
  /-- The current VRAM address (R26). -/
  v : BitVec 15
  /-- The temporary VRAM address and scroll latch (R26). -/
  t : BitVec 15
  /-- Fine horizontal scroll (R26). -/
  fineX : BitVec 3
  /-- The write toggle: set where the next write is the second of a pair (R26). -/
  w : Bool
  /-- The PPUDATA read buffer (R26). -/
  readBuffer : Byte
  /-- The scanline, 0 to 261 (R290). -/
  scanline : Nat
  /-- The PPU cycle of the scanline, 0 to 340 (R290). -/
  dot : Nat
  /-- How often, up to 2, the program has read vblank = 1 since reset: the end of warm-up (R396). -/
  vblanksSeen : Nat
  /-- Nametable RAM, two pages of 1KB (R22, R277). -/
  nametables : Memory
  /-- Palette RAM (R22, R278). -/
  palette : Memory
  /-- OAM (R22, R283). -/
  oam : Memory
deriving DecidableEq, Repr

/-- The MMC3's registers and its scanline counter (R29). -/
structure Mmc3 where
  /-- `bank_select` (R332). -/
  bankSelect : Byte
  /-- R[0] (R333). -/
  r0 : Byte
  /-- R[1] (R333). -/
  r1 : Byte
  /-- R[2] (R333). -/
  r2 : Byte
  /-- R[3] (R333). -/
  r3 : Byte
  /-- R[4] (R333). -/
  r4 : Byte
  /-- R[5] (R333). -/
  r5 : Byte
  /-- R[6] (R333). -/
  r6 : Byte
  /-- R[7] (R333). -/
  r7 : Byte
  /-- `mirroring`: false is vertical, true horizontal (R334). -/
  mirroring : Bool
  /-- `prg_ram_protect` (R334, R346). -/
  prgRamProtect : Byte
  /-- `irq_latch` (R335). -/
  irqLatch : Byte
  /-- `irq_counter` (R352). -/
  irqCounter : Byte
  /-- `irq_reload` (R335). -/
  irqReload : Bool
  /-- `irq_enable` (R336, R337). -/
  irqEnable : Bool
  /-- `irq_pending` (R352). -/
  irqPending : Bool
deriving DecidableEq, Repr

/-- What the model keeps of the APU: the facts that gate `apu_irq`, its two components, and the event history of
register writes (R229, R311 to R316). -/
structure Apu where
  /-- `frame_irq_inhibit` (R316). -/
  frameIrqInhibit : Bool
  /-- A value with bit 7 = 1 was written to $4010 (R312). -/
  dmcIrqEnabled : Bool
  /-- The frame component of `apu_irq` (R229, R314). -/
  frameIrq : Bool
  /-- The DMC component of `apu_irq` (R229, R315). -/
  dmcIrq : Bool
  /-- Every write to $4000-$4013, $4015 and $4017, the newest first (R311, R389). -/
  writes : List Host.Cell
deriving DecidableEq, Repr

/-- The controller ports (R321, R322). Bit 0 of a button byte is A, then B, Select, Start, Up, Down, Left, Right. -/
structure Pads where
  /-- Standard controllers are known to be plugged in: bits 4-1 of a read are 0 (R322). Where it is not set, those bits are
  any value (U4). The model's own field, a parameter no step changes (log 25). -/
  standard : Bool
  /-- `strobe` (R321). -/
  strobe : Bool
  /-- The serial register of controller 1 (R322). -/
  shift1 : Byte
  /-- The serial register of controller 2 (R322). -/
  shift2 : Byte
  /-- The buttons the host holds on controller 1 (R389). -/
  buttons1 : Byte
  /-- The buttons the host holds on controller 2 (R389). -/
  buttons2 : Byte
deriving DecidableEq, Repr

/-- The OAM DMA engine (R318). -/
structure Dma where
  /-- `dma_active` (R18, R318). -/
  active : Bool
  /-- The page `d` being copied (R318). -/
  page : Byte
  /-- The next byte `i` of the page (R318). -/
  index : Byte
deriving DecidableEq, Repr

/-- What the host does to the machine's power at an instruction boundary (R389). -/
inductive HostAction where
  /-- Nothing. -/
  | none
  /-- The reset button: `reset_requested` (R221). -/
  | resetButton
  /-- Power off and on again: only the battery-backed WRAM survives (R246, R389). -/
  | powerCycle
deriving DecidableEq, Repr

/-- One boundary's worth of what the outside world does: the model's own data for the inputs the spec makes
parameters of the step relation (R6, R389; log 13). -/
structure HostInput where
  /-- Power and reset (R389). -/
  action : HostAction
  /-- The buttons held on controller 1 from here on (R322). -/
  buttons1 : Byte
  /-- The buttons held on controller 2 from here on (R322). -/
  buttons2 : Byte
  /-- The APU's frame counter asks for an IRQ here (R229; log 23). -/
  frameIrq : Bool
  /-- The APU's DMC asks for an IRQ here (R229; log 23). -/
  dmcIrq : Bool
  /-- Pending interrupts are left for a later boundary; read only where `timed` is off (R221, D18; log 15). -/
  deferInterrupts : Bool
  /-- How many PPU dots pass after this CPU step; read only where `timed` is off (R9, R417; log 14). -/
  dots : Nat
deriving DecidableEq, Repr

/-- The whole machine: everything 10_state.md names, the ROM image it is parameterised by (R370; log 1), and the
model's own fields `fresh`, `timed`, `cycles` and `inputs`. -/
structure State where
  /-- The CPU (R10 to R18). -/
  cpu : Cpu
  /-- The PPU (R23 to R26). -/
  ppu : Ppu
  /-- The MMC3 (R28, R29). -/
  mmc3 : Mmc3
  /-- The APU (R27). -/
  apu : Apu
  /-- The controller ports (R320). -/
  pads : Pads
  /-- The OAM DMA engine (R318). -/
  dma : Dma
  /-- Internal RAM (R19). -/
  ram : Memory
  /-- Cartridge WRAM (R20). -/
  wram : Memory
  /-- PRG ROM, never written (R21). -/
  prg : Memory
  /-- CHR ROM, never written (R21). -/
  chr : Memory
  /-- How many free values have been drawn; the model's own (log 9). -/
  fresh : Nat
  /-- TIMED: whether cycles are counted (R9; log 14). -/
  timed : Bool
  /-- CPU cycles counted while `timed` (R417; log 14). -/
  cycles : Nat
  /-- What the host will do, the next boundary first; the model's own (log 13). -/
  inputs : List HostInput
deriving DecidableEq, Repr

/-- Faults: none. The CPU has no trap for a bad access, a bad opcode or a privilege violation, and every one of the
65536 addresses exists (R7, R220, R40; log 33). Safe: no run of the hardware ends in a fault. -/
inductive Fault where
deriving DecidableEq, Repr

/-- The situations the spec gives no meaning (00_scope.md section 7 `refuse`, 93_implementation_defined.md part 1).
Each is safe: a refused program is unprovable, not mis-proved (D12). -/
inductive Refusal where
  /-- `exec`: an instruction that has no meaning yet. Safe. -/
  | notModelled (mnemonic : String)
  /-- The fetch: one of the 105 undefined opcodes (R90, U1, D16). Safe. -/
  | undefinedOpcode (op : Byte)
  /-- The fetch: PC is in $2000-$5FFF (R53, D12). Safe. -/
  | fetchFromDevice (pc : Addr)
  /-- A read-modify-write instruction whose address is in $2000-$5FFF or $8000-$FFFF (R58(i)). Safe. -/
  | modifyOnDeviceOrRom (ea : Addr)
  /-- An indexed STA whose uncarried address is read-sensitive (R58(ii)). Safe. -/
  | indexedStoreTouchesDevice (uncarried : Addr)
  /-- An indexed read that carries and whose uncarried address is read-sensitive (R58(iii)). Safe. -/
  | indexedReadTouchesDevice (uncarried : Addr)
  /-- A $2007 access where `vram_safe` is false (R294, U12). Safe. -/
  | vramUnsafe
  /-- A $2004 access where `vram_safe` is false (R268, R294, U12). Safe. -/
  | oamUnsafe
  /-- A $4014 write where `vram_safe` is false (R401). Safe. -/
  | dmaUnsafe
  /-- A $4014 write whose page is in $20..$5F (R318). Safe. -/
  | dmaFromDevice (page : Byte)
  /-- A $2000 write with bit 6 set (R263, U6). Safe. -/
  | masterSlaveBit
  /-- A $4015 write with bit 4 set: it starts DMC playback (R312, R315, D19). Safe. -/
  | dmcPlayback
deriving DecidableEq, Repr

/-- The CPU at power-on but for PC: I = 1 and no NMI pending (R37, R386); A, X, Y, S and the other flags are the
spec's GK values, a named choice (log 3). -/
def Cpu.powerOn (pc : Addr) : Cpu :=
  { a := 0x00, x := 0x00, y := 0x00, sp := 0xFD, pc := pc, n := false, v := false, d := false, i := true,
    z := false, c := false, nmiPending := false }

/-- The PPU at power-on: PPUCTRL = PPUMASK = $00 (R37, R386); the rest named values (log 2, log 5). -/
def Ppu.powerOn : Ppu :=
  { ctrl := 0x00, mask := 0x00, vblank := false, sprite0Hit := false, spriteOverflow := false, oamAddr := 0x00,
    v := 0, t := 0, fineX := 0, w := false, readBuffer := 0x00, scanline := 0, dot := 0, vblanksSeen := 0,
    nametables := [], palette := [], oam := [] }

/-- The MMC3 at power-on: MMC3_INIT, named values (log 6). -/
def Mmc3.powerOn : Mmc3 :=
  { bankSelect := 0x00, r0 := 0x00, r1 := 0x00, r2 := 0x00, r3 := 0x00, r4 := 0x00, r5 := 0x00, r6 := 0x00,
    r7 := 0x00, mirroring := false, prgRamProtect := 0x00, irqLatch := 0x00, irqCounter := 0x00,
    irqReload := false, irqEnable := false, irqPending := false }

/-- The APU at power-on: the frame IRQ not inhibited (R229), nothing written yet (log 7). -/
def Apu.powerOn : Apu :=
  { frameIrqInhibit := false, dmcIrqEnabled := false, frameIrq := false, dmcIrq := false, writes := [] }

/-- The controller ports at power-on: named values (log 7). -/
def Pads.powerOn : Pads :=
  { standard := false, strobe := false, shift1 := 0x00, shift2 := 0x00, buttons1 := 0x00, buttons2 := 0x00 }

/-- The DMA engine at power-on: idle (R386); page and index named values (log 8). -/
def Dma.powerOn : Dma := { active := false, page := 0x00, index := 0x00 }

/-- The word at $FFFC: the last two bytes but two of PRG ROM, whatever state the MMC3 is in (R31, R387). -/
def resetVector (prg : Memory) : Addr := wordOf (prg.read 0x3FFFC) (prg.read 0x3FFFD)

/-- The machine right after power-on with an image `(prg, chr)` and the WRAM the host has kept (R370, R386, R389). -/
def State.powerOn (prg chr wram : Memory) : State :=
  { cpu := Cpu.powerOn (resetVector prg), ppu := Ppu.powerOn, mmc3 := Mmc3.powerOn, apu := Apu.powerOn,
    pads := Pads.powerOn, dma := Dma.powerOn, ram := [], wram := wram, prg := prg, chr := chr,
    fresh := 0, timed := false, cycles := 0, inputs := [] }

/-- The machine right after reset (R386), with the empty image and nothing kept (log 1, log 2). -/
def State.reset : State := State.powerOn [] [] []

end Sys2Proof.Machine
end

