-- ==== Sys2Proof/Machine/Updates.lean ====
section
/-! DEFINITION. The named updates of the state: each writes one register, flag or chip and nothing else
(their lemmas are in Laws/State.lean). -/

namespace Sys2Proof.Machine

/-- A is written. -/
def State.setA (s : State) (v : Byte) : State := { s with cpu := { s.cpu with a := v } }
/-- X is written. -/
def State.setX (s : State) (v : Byte) : State := { s with cpu := { s.cpu with x := v } }
/-- Y is written. -/
def State.setY (s : State) (v : Byte) : State := { s with cpu := { s.cpu with y := v } }
/-- S is written. -/
def State.setSp (s : State) (v : Byte) : State := { s with cpu := { s.cpu with sp := v } }
/-- PC is written. -/
def State.setPc (s : State) (v : Addr) : State := { s with cpu := { s.cpu with pc := v } }
/-- N is written. -/
def State.setN (s : State) (b : Bool) : State := { s with cpu := { s.cpu with n := b } }
/-- V is written. -/
def State.setV (s : State) (b : Bool) : State := { s with cpu := { s.cpu with v := b } }
/-- D is written. -/
def State.setD (s : State) (b : Bool) : State := { s with cpu := { s.cpu with d := b } }
/-- I is written. -/
def State.setI (s : State) (b : Bool) : State := { s with cpu := { s.cpu with i := b } }
/-- Z is written. -/
def State.setZ (s : State) (b : Bool) : State := { s with cpu := { s.cpu with z := b } }
/-- C is written. -/
def State.setC (s : State) (b : Bool) : State := { s with cpu := { s.cpu with c := b } }
/-- `nmi_pending` is written. -/
def State.setNmiPending (s : State) (b : Bool) : State := { s with cpu := { s.cpu with nmiPending := b } }
/-- The PPU is replaced. -/
def State.setPpu (s : State) (p : Ppu) : State := { s with ppu := p }
/-- The MMC3 is replaced. -/
def State.setMmc3 (s : State) (m : Mmc3) : State := { s with mmc3 := m }
/-- The APU is replaced. -/
def State.setApu (s : State) (p : Apu) : State := { s with apu := p }
/-- The controller ports are replaced. -/
def State.setPads (s : State) (p : Pads) : State := { s with pads := p }
/-- The DMA engine is replaced. -/
def State.setDma (s : State) (d : Dma) : State := { s with dma := d }
/-- Internal RAM is replaced. -/
def State.setRam (s : State) (m : Memory) : State := { s with ram := m }
/-- WRAM is replaced. -/
def State.setWram (s : State) (m : Memory) : State := { s with wram := m }
/-- One more free value has been drawn (log 9). -/
def State.drawn (s : State) : State := { s with fresh := s.fresh + 1 }

end Sys2Proof.Machine
end

