-- ==== Sys2Proof/Machine/Mmc3.lean ====
section
/-! DEFINITION. The MMC3 mapper (63_mmc3.md): register writes, PRG and CHR banking, WRAM access control and
the scanline counter. -/

namespace Sys2Proof.Machine

/-- The bank register a bank data write stores into: `R[bank_select & 7] <- d` (R333). -/
def Mmc3.setBank (m : Mmc3) (d : Byte) : Mmc3 :=
  match (m.bankSelect &&& 0x07).toNat with
  | 0 => { m with r0 := d }
  | 1 => { m with r1 := d }
  | 2 => { m with r2 := d }
  | 3 => { m with r3 := d }
  | 4 => { m with r4 := d }
  | 5 => { m with r5 := d }
  | 6 => { m with r6 := d }
  | _ => { m with r7 := d }

/-- Which of the eight registers a write to $8000-$FFFF reaches: `((addr >> 13) & 3) * 2 + (addr & 1)` (R331). -/
def Mmc3.regOf (addr : Addr) : Nat := addr.toNat / 0x2000 % 4 * 2 + addr.toNat % 2

/-- A CPU write to $8000-$FFFF (R331 to R337). -/
def Mmc3.writeReg (m : Mmc3) (addr : Addr) (d : Byte) : Mmc3 :=
  match Mmc3.regOf addr with
  | 0 => { m with bankSelect := d }
  | 1 => m.setBank d
  | 2 => { m with mirroring := d.getLsbD 0 }
  | 3 => { m with prgRamProtect := d }
  | 4 => { m with irqLatch := d }
  | 5 => { m with irqCounter := 0, irqReload := true }
  | 6 => { m with irqEnable := false, irqPending := false }
  | _ => { m with irqEnable := true }

/-- The 8KB bank a CPU address in $8000-$FFFF shows (R338). -/
def Mmc3.prgBank (m : Mmc3) (addr : Addr) : Nat :=
  match addr.toNat / 0x2000 % 4, m.bankSelect.getLsbD 7 with
  | 0, false => (m.r6 &&& 0x1F).toNat
  | 0, true => 30
  | 1, _ => (m.r7 &&& 0x1F).toNat
  | 2, false => 30
  | 2, true => (m.r6 &&& 0x1F).toNat
  | _, _ => 31

/-- `prg_offset(addr)`: the PRG ROM byte a CPU address in $8000-$FFFF shows (R338). -/
def Mmc3.prgOffset (m : Mmc3) (addr : Addr) : Nat := m.prgBank addr * 0x2000 + addr.toNat % 0x2000

/-- The uninverted PPU address: CHR A12 inversion swaps the two 4KB halves (R342). -/
def Mmc3.chrAddr (m : Mmc3) (a : PpuAddr) : PpuAddr := if m.bankSelect.getLsbD 6 then a ^^^ 0x1000 else a

/-- The 1KB unit of CHR ROM in a 1KB slot of the uninverted layout (R342). -/
def Mmc3.chrUnit (m : Mmc3) (slot : Nat) : Byte :=
  match slot with
  | 0 => m.r0 &&& 0xFE
  | 1 => (m.r0 &&& 0xFE) ||| 1
  | 2 => m.r1 &&& 0xFE
  | 3 => (m.r1 &&& 0xFE) ||| 1
  | 4 => m.r2
  | 5 => m.r3
  | 6 => m.r4
  | _ => m.r5

/-- `chr_offset(a)`: the CHR ROM byte a PPU address in $0000-$1FFF shows (R342). -/
def Mmc3.chrOffset (m : Mmc3) (a : PpuAddr) : Nat :=
  (m.chrUnit ((m.chrAddr a).toNat / 0x400) &&& 0x7F).toNat * 0x400 + (m.chrAddr a).toNat % 0x400

/-- WRAM is enabled (R346). -/
def Mmc3.wramEnabled (m : Mmc3) : Bool := m.prgRamProtect.getLsbD 7

/-- WRAM takes writes (R346). -/
def Mmc3.wramWritable (m : Mmc3) : Bool := m.prgRamProtect.getLsbD 7 && !m.prgRamProtect.getLsbD 6

/-- The counter's value after one clock (R352). -/
def Mmc3.nextCounter (m : Mmc3) : Byte := if m.irqCounter = 0 || m.irqReload then m.irqLatch else m.irqCounter - 1

/-- One clock of the scanline counter (R352). -/
def Mmc3.clock (m : Mmc3) : Mmc3 :=
  { m with
    irqCounter := m.nextCounter
    irqReload := false
    irqPending := m.irqPending || (m.irqEnable && decide (m.nextCounter = 0)) }

/-- Some clocks of the scanline counter, one after another. -/
def Mmc3.clockTimes : Nat → Mmc3 → Mmc3
  | 0, m => m
  | k + 1, m => Mmc3.clockTimes k m.clock

/-- The MMC3 after some clocks, written by the fields a clock can change (`Mmc3.clocks_eq` says that it is
`clockTimes`): with a free number of clocks every other field, and an `irq_pending` that cannot rise, can still
be evaluated. -/
def Mmc3.clocks (m : Mmc3) (k : Nat) : Mmc3 :=
  { m with
    irqCounter := (Mmc3.clockTimes k m).irqCounter
    irqReload := (Mmc3.clockTimes k m).irqReload
    irqPending := m.irqPending || (m.irqEnable && (Mmc3.clockTimes k m).irqPending) }

end Sys2Proof.Machine
end

