-- ==== Sys2Proof/Machine/Ppu.lean ====
section
/-! DEFINITION. The PPU as the CPU sees it (61_ppu.md): the registers $2000-$2007, the PPU address space, and the
PPU agent's step through the frame with the events that set the status flags, raise NMI and clock the MMC3. -/

namespace Sys2Proof.Machine

/-- `rendering_enabled = PPUMASK[3] | PPUMASK[4]` (R25, R264). -/
def Ppu.rendering (p : Ppu) : Bool := p.mask.getLsbD 3 || p.mask.getLsbD 4

/-- `vram_safe`: rendering is disabled, or the PPU is in VBlank, scanlines 241..260 (R294). -/
def Ppu.vramSafe (p : Ppu) : Bool := !p.rendering || (decide (241 ≤ p.scanline) && decide (p.scanline ≤ 260))

/-- `nmi_line = vblank & PPUCTRL[7]` (R227). -/
def Ppu.nmiLine (p : Ppu) : Bool := p.vblank && p.ctrl.getLsbD 7

/-- A PPU change the NMI output follows at once: each 0-to-1 transition of `nmi_line` sets `nmi_pending` (R227). -/
def State.setPpuNmi (s : State) (p : Ppu) : State :=
  (s.setPpu p).setNmiPending (s.cpu.nmiPending || (p.nmiLine && !s.ppu.nmiLine))

/-- The 14-bit VRAM address the next $2007 access uses, `v[13:0]` (R270). -/
def Ppu.vramAddr (p : Ppu) : PpuAddr := p.v.setWidth 14

/-- `v` after a $2007 access: +32 where PPUCTRL bit 2 is set, else +1, modulo 0x8000 (R271, R272). -/
def Ppu.advanceV (p : Ppu) : BitVec 15 := p.v + (if p.ctrl.getLsbD 2 then 32 else 1)

/-- The physical page of a nametable: vertical mirroring takes `n & 1`, horizontal `n >> 1` (R277). -/
def nametablePage (horizontal : Bool) (n : Nat) : Nat := if horizontal then n / 2 else n % 2

/-- The nametable RAM byte of a PPU address in $2000-$3EFF (R276, R277); $3000-$3EFF is `a - 0x1000`. -/
def nametableIndex (horizontal : Bool) (a : PpuAddr) : Nat :=
  nametablePage horizontal (a.toNat / 0x400 % 4) * 0x400 + a.toNat % 0x400

/-- The palette entry of a PPU address in $3F00-$3FFF: entries $10, $14, $18, $1C are $00, $04, $08, $0C (R278). -/
def paletteIndex (a : PpuAddr) : Nat :=
  if a &&& 0x13 = 0x10 then (a &&& 0x0F).toNat else (a &&& 0x1F).toNat

/-- `PpuRead(a)` (R276). -/
def State.ppuRead (s : State) (a : PpuAddr) : Byte :=
  if a.toNat < 0x2000 then s.chr.read (s.mmc3.chrOffset a)
  else if a.toNat < 0x3F00 then s.ppu.nametables.read (nametableIndex s.mmc3.mirroring a)
  else s.ppu.palette.read (paletteIndex a)

/-- `PpuWrite(a, d)` (R276): CHR ROM does not change, a palette entry keeps 6 bits (R278). -/
def State.ppuWrite (s : State) (a : PpuAddr) (d : Byte) : State :=
  if a.toNat < 0x2000 then s
  else if a.toNat < 0x3F00 then
    s.setPpu { s.ppu with nametables := s.ppu.nametables.write (nametableIndex s.mmc3.mirroring a) d }
  else s.setPpu { s.ppu with palette := s.ppu.palette.write (paletteIndex a) (d &&& 0x3F) }

/-- A byte that nothing drives: a free value (R57, D11). -/
def State.openBus (s : State) : Byte × State := (Config.openBus s.fresh, s.drawn)

/-- A rise of `v` bit 12 by $2006 or $2007 clocks the MMC3 counter a free number of times (R351; log 11). -/
def State.noteA12 (s : State) (before : BitVec 15) : State :=
  (s.setMmc3 (s.mmc3.clocks
    (if s.ppu.v.getLsbD 12 && !before.getLsbD 12 then Config.a12Clocks s.fresh else 0))).drawn

/-- The status byte of $2002: flags in bits 7..5, free bits below (R266). -/
def Ppu.statusByte (p : Ppu) (free : Byte) : Byte :=
  BitVec.ofBool p.vblank ++ BitVec.ofBool p.sprite0Hit ++ BitVec.ofBool p.spriteOverflow ++ free.extractLsb' 0 5

/-- Read of $2002: the flags, then `vblank <- 0; w <- 0` (R266); a read that sees vblank counts toward the end of
warm-up (R396). -/
def State.readStatus (s : State) : Byte × State :=
  (s.ppu.statusByte s.openBus.1,
   s.openBus.2.setPpu { s.ppu with
     vblank := false
     w := false
     vblanksSeen := if s.ppu.vblank && decide (s.ppu.vblanksSeen < 2) then s.ppu.vblanksSeen + 1
                    else s.ppu.vblanksSeen })

/-- The byte a read of $2004 returns: bits 4-2 of an attribute byte read as 0 (R268, U7). -/
def Ppu.oamByte (p : Ppu) : Byte :=
  if p.oamAddr &&& 3 = 2 then p.oam.read p.oamAddr.toNat &&& 0xE3 else p.oam.read p.oamAddr.toNat

/-- Read of $2004, OAMDATA (R268); refused where `vram_safe` is false (R294). -/
def State.readOamData (s : State) : Except Refusal (Byte × State) :=
  if s.ppu.vramSafe then .ok (s.ppu.oamByte, s) else .error .oamUnsafe

/-- Read of $2007, PPUDATA (R272): buffered below $3F00, palette bytes direct; refused where `vram_safe` is false. -/
def State.readPpuData (s : State) : Except Refusal (Byte × State) :=
  if s.ppu.vramSafe then
    if s.ppu.vramAddr.toNat < 0x3F00 then
      .ok (s.ppu.readBuffer,
        (s.setPpu { s.ppu with readBuffer := s.ppuRead s.ppu.vramAddr, v := s.ppu.advanceV }).noteA12 s.ppu.v)
    else
      .ok ((s.ppuRead s.ppu.vramAddr &&& 0x3F) ||| (s.openBus.1 &&& 0xC0),
        (s.openBus.2.setPpu { s.ppu with
          readBuffer := s.ppuRead (s.ppu.vramAddr - 0x1000), v := s.ppu.advanceV }).noteA12 s.ppu.v)
  else .error .vramUnsafe

/-- A CPU read of PPU register `reg` (R44, R56): the write-only registers are open bus (R57). -/
def State.readPpuReg (s : State) (reg : Nat) : Except Refusal (Byte × State) :=
  match reg with
  | 2 => .ok s.readStatus
  | 4 => s.readOamData
  | 7 => s.readPpuData
  | _ => .ok s.openBus

/-- The PPU after a register write that takes effect or not, by the fields those four registers write. -/
def Ppu.applyIf (b : Bool) (written before : Ppu) : Ppu :=
  { before with
    ctrl := if b then written.ctrl else before.ctrl
    mask := if b then written.mask else before.mask
    t := if b then written.t else before.t
    v := if b then written.v else before.v
    fineX := if b then written.fineX else before.fineX
    w := if b then written.w else before.w }

/-- PPUCTRL after a write (R263): the base nametable goes into `t[11:10]`. -/
def Ppu.writeCtrl (p : Ppu) (d : Byte) : Ppu :=
  { p with ctrl := d, t := (p.t &&& 0x73FF) ||| ((d &&& 0x03).setWidth 15 <<< 10) }

/-- PPUMASK after a write (R264). -/
def Ppu.writeMask (p : Ppu) (d : Byte) : Ppu := { p with mask := d }

/-- PPUSCROLL after a write (R269): horizontal first, then vertical. -/
def Ppu.writeScroll (p : Ppu) (d : Byte) : Ppu :=
  if p.w then
    { p with
      t := (p.t &&& 0x0C1F) ||| ((d &&& 0x07).setWidth 15 <<< 12) ||| ((d >>> 3).setWidth 15 <<< 5)
      w := false }
  else
    { p with t := (p.t &&& 0x7FE0) ||| (d >>> 3).setWidth 15, fineX := d.setWidth 3, w := true }

/-- PPUADDR after a write (R270): high byte first, then low byte, which copies `t` to `v`. -/
def Ppu.writeAddr (p : Ppu) (d : Byte) : Ppu :=
  if p.w then
    { p with
      t := (p.t &&& 0x7F00) ||| d.setWidth 15
      v := (p.t &&& 0x7F00) ||| d.setWidth 15
      w := false }
  else
    { p with t := (p.t &&& 0x00FF) ||| ((d &&& 0x3F).setWidth 15 <<< 8), w := true }

/-- Write of $2004, OAMDATA (R268); refused where `vram_safe` is false (R294). -/
def State.writeOamData (s : State) (d : Byte) : Except Refusal State :=
  if s.ppu.vramSafe then
    .ok (s.setPpu { s.ppu with oam := s.ppu.oam.write s.ppu.oamAddr.toNat d, oamAddr := s.ppu.oamAddr + 1 })
  else .error .oamUnsafe

/-- Write of $2007, PPUDATA (R271); refused where `vram_safe` is false (R294). -/
def State.writePpuData (s : State) (d : Byte) : Except Refusal State :=
  if s.ppu.vramSafe then
    let stored := s.ppuWrite s.ppu.vramAddr d
    .ok ((stored.setPpu { stored.ppu with v := s.ppu.advanceV }).noteA12 s.ppu.v)
  else .error .vramUnsafe

/-- A write of $2000, $2001, $2005 or $2006: once vblank = 1 has been observed twice since reset it takes effect,
before that whether it does is a free choice (R396; log 12); the NMI output follows (R263). -/
def State.writeWarm (s : State) (written : Ppu) : State :=
  if 2 ≤ s.ppu.vblanksSeen then s.setPpuNmi written
  else (s.setPpuNmi (Ppu.applyIf (Config.warmUpApplies s.fresh) written s.ppu)).drawn

/-- A CPU write of PPU register `reg` (R44, R263 to R271); $2002 takes no write (R262). -/
def State.writePpuReg (s : State) (reg : Nat) (d : Byte) : Except Refusal State :=
  match reg with
  | 0 => if d.getLsbD 6 then .error .masterSlaveBit else .ok (s.writeWarm (s.ppu.writeCtrl d))
  | 1 => .ok (s.writeWarm (s.ppu.writeMask d))
  | 2 => .ok s
  | 3 => .ok (s.setPpu { s.ppu with oamAddr := d })
  | 4 => s.writeOamData d
  | 5 => .ok (s.writeWarm (s.ppu.writeScroll d))
  | 6 => .ok ((s.writeWarm (s.ppu.writeAddr d)).noteA12 s.ppu.v)
  | _ => s.writePpuData d

/-- One PPU cycle further in the frame: 341 dots a scanline, 262 scanlines a frame (R290). -/
def Ppu.nextPosition (p : Ppu) : Ppu :=
  if p.dot < Config.dotsPerScanline - 1 then { p with dot := p.dot + 1 }
  else { p with dot := 0, scanline := if p.scanline < Config.scanlinesPerFrame - 1 then p.scanline + 1 else 0 }

/-- The frame's events: VBlank starts at (241, 1) with its NMI, the status flags clear at (261, 1) (R291). -/
def State.frameEvent (s : State) : State :=
  if s.ppu.scanline = 241 ∧ s.ppu.dot = 1 then s.setPpuNmi { s.ppu with vblank := true }
  else if s.ppu.scanline = 261 ∧ s.ppu.dot = 1 then
    s.setPpu { s.ppu with vblank := false, sprite0Hit := false, spriteOverflow := false }
  else s

/-- During rendering of scanlines 0-239 each sprite flag may become 1, and stays 1 (R267; log 10). -/
def State.spriteEvent (s : State) : State :=
  if s.ppu.rendering ∧ s.ppu.scanline ≤ 239 then
    ((s.setPpu { s.ppu with
      sprite0Hit := s.ppu.sprite0Hit || Config.spriteFlag s.fresh
      spriteOverflow := s.ppu.spriteOverflow || Config.spriteFlag (s.fresh + 1) }).drawn).drawn
  else s

/-- The configuration in which A12 rises once a scanline: background at $0000, sprites at $1000, 8x8 (R351). -/
def Ppu.standardPatterns (p : Ppu) : Bool := !p.ctrl.getLsbD 4 && p.ctrl.getLsbD 3 && !p.ctrl.getLsbD 5

/-- The place of the standard configuration's clock: dot 260 of scanlines 0-239 and 261 (R291, R351). The spec says "about
dot 260"; that it is exactly there is the model's reading (log 11). -/
def Ppu.atStandardClock (p : Ppu) : Bool :=
  decide (p.dot = 260) && (decide (p.scanline ≤ 239) || decide (p.scanline = 261))

/-- The scanlines on which another configuration may clock the counter: the rendered ones, 0-239 and 261, and the one
before each of them, as the opposite assignment clocks at "about dot 324 of the preceding scanline" (R351). -/
def Ppu.onClockLine (p : Ppu) : Bool := decide (p.scanline ≤ 239) || decide (260 ≤ p.scanline)

/-- While rendering in the standard configuration the MMC3 counter is clocked once a rendered scanline (R291, R351); in
another configuration a free number of times, none included, at each dot of the clock lines (R351; log 11). -/
def State.scanlineClock (s : State) : State :=
  if s.ppu.rendering then
    if s.ppu.standardPatterns then
      if s.ppu.atStandardClock then s.setMmc3 s.mmc3.clock else s
    else if s.ppu.onClockLine then
      (s.setMmc3 (s.mmc3.clocks (Config.a12Clocks s.fresh))).drawn
    else s
  else s

/-- One step of the PPU agent: one dot, with the events of the place it reaches (R290, R291). -/
def State.ppuDot (s : State) : State :=
  (s.setPpu s.ppu.nextPosition).frameEvent.spriteEvent.scanlineClock

/-- Some steps of the PPU agent. -/
def State.ppuRun : Nat → State → State
  | 0, s => s
  | k + 1, s => State.ppuRun k s.ppuDot

end Sys2Proof.Machine
end

