-- ==== Sys2Proof/Machine/Apu.lean ====
section
/-! DEFINITION. The APU's registers as sinks, the facts that gate its IRQ, the controller ports and the OAM DMA
trigger: CPU addresses $4000-$401F (62_apu_io.md). -/

namespace Sys2Proof.Machine

/-- A register write goes into the event history (R311, R389). -/
def Apu.record (p : Apu) (address : Nat) (d : Byte) : Apu := { p with writes := (address, d) :: p.writes }

/-- The byte an event history last gave an address; $00 where it gives none (R37 GK; log 7). -/
def lastWrite : List Host.Cell → Nat → Byte
  | [], _ => 0x00
  | (a, b) :: rest, k => if a = k then b else lastWrite rest k

/-- The last byte written to an APU register: a view of the event history (R27). -/
def Apu.lastWritten (p : Apu) (address : Nat) : Byte := lastWrite p.writes address

/-- `apu_irq` (R229): 0 where the frame IRQ is inhibited and the DMC IRQ was never enabled. -/
def Apu.irq (p : Apu) : Bool := (p.frameIrq && !p.frameIrqInhibit) || (p.dmcIrq && p.dmcIrqEnabled)

/-- Read of $4015: a free value; the frame component of `apu_irq` is cleared (R314). -/
def State.readApuStatus (s : State) : Byte × State :=
  (s.openBus.1, s.openBus.2.setApu { s.apu with frameIrq := false })

/-- The byte a controller port returns: the button bit in bit 0, the other bits free (R322, U4), but for bits 4-1, which
are 0 with standard controllers (R322). -/
def padByte (standard button : Bool) (free : Byte) : Byte :=
  (free &&& (if standard then 0xE0 else 0xFE)) ||| (BitVec.ofBool button).setWidth 8

/-- A serial register after a read with the strobe low: the next bit moves up, a 1 enters behind (R322). -/
def padShift (shift : Byte) : Byte := (shift >>> 1) ||| 0x80

/-- Read of $4016, controller 1 (R322). -/
def State.readPad1 (s : State) : Byte × State :=
  if s.pads.strobe then (padByte s.pads.standard (s.pads.buttons1.getLsbD 0) s.openBus.1, s.openBus.2)
  else (padByte s.pads.standard (s.pads.shift1.getLsbD 0) s.openBus.1,
    s.openBus.2.setPads { s.pads with shift1 := padShift s.pads.shift1 })

/-- Read of $4017, controller 2 (R322). -/
def State.readPad2 (s : State) : Byte × State :=
  if s.pads.strobe then (padByte s.pads.standard (s.pads.buttons2.getLsbD 0) s.openBus.1, s.openBus.2)
  else (padByte s.pads.standard (s.pads.shift2.getLsbD 0) s.openBus.1,
    s.openBus.2.setPads { s.pads with shift2 := padShift s.pads.shift2 })

/-- Write of $4016: the strobe; its fall freezes the buttons for serial reading (R321). -/
def Pads.writeStrobe (p : Pads) (d : Byte) : Pads :=
  if p.strobe && !d.getLsbD 0 then
    { p with strobe := d.getLsbD 0, shift1 := p.buttons1, shift2 := p.buttons2 }
  else { p with strobe := d.getLsbD 0 }

/-- Write of $4000-$4013: a sink; a $4010 byte with bit 7 set is remembered (R311, R312). -/
def Apu.writeChannel (p : Apu) (address : Nat) (d : Byte) : Apu :=
  { p.record address d with
    dmcIrqEnabled := p.dmcIrqEnabled || (decide (address = 0x4010) && d.getLsbD 7) }

/-- Write of $4015 without bit 4: a sink that clears the DMC IRQ flag (R315). -/
def Apu.writeEnable (p : Apu) (d : Byte) : Apu := { p.record 0x4015 d with dmcIrq := false }

/-- Write of $4017: bit 6 inhibits the frame IRQ and clears its flag (R316). -/
def Apu.writeFrameCounter (p : Apu) (d : Byte) : Apu :=
  { p.record 0x4017 d with
    frameIrqInhibit := d.getLsbD 6
    frameIrq := p.frameIrq && !d.getLsbD 6 }

/-- A DMA page whose 256 bytes are device registers, $20..$5F (R318). -/
def dmaPageRefused (page : Byte) : Bool := decide (0x20 ≤ page.toNat) && decide (page.toNat ≤ 0x5F)

/-- Write of $4014: the OAM DMA engine is started (R318); refused on a device page (R318) and where `vram_safe` is
false (R401). -/
def State.startDma (s : State) (page : Byte) : Except Refusal State :=
  if dmaPageRefused page then .error (.dmaFromDevice page)
  else if s.ppu.vramSafe then .ok (s.setDma { active := true, page := page, index := 0 })
  else .error .dmaUnsafe

/-- A CPU read of $4000-$401F (R41): $4015 and the two ports; the rest is open bus (R57, R323). -/
def State.readIo (s : State) (address : Nat) : Byte × State :=
  if address = 0x4015 then s.readApuStatus
  else if address = 0x4016 then s.readPad1
  else if address = 0x4017 then s.readPad2
  else s.openBus

/-- A CPU write of $4000-$401F (R42). -/
def State.writeIo (s : State) (address : Nat) (d : Byte) : Except Refusal State :=
  if address ≤ 0x4013 then .ok (s.setApu (s.apu.writeChannel address d))
  else if address = 0x4014 then s.startDma d
  else if address = 0x4015 then
    if d.getLsbD 4 then .error .dmcPlayback else .ok (s.setApu (s.apu.writeEnable d))
  else if address = 0x4016 then .ok (s.setPads (s.pads.writeStrobe d))
  else if address = 0x4017 then .ok (s.setApu (s.apu.writeFrameCounter d))
  else .ok s

end Sys2Proof.Machine
end

