-- ==== Sys2Proof/Machine/Flags.lean ====
section
/-! DEFINITION. Every flag computation: the byte image of P (R14, R15), N and Z (R16), and the arithmetic, compare,
bit test, shift and rotate laws of 43_arithmetic.md and 44_logic_shift.md. -/

namespace Sys2Proof.Machine

/-- `P_byte(b)`: `N*128 + V*64 + 32 + b*16 + D*8 + I*4 + Z*2 + C` (R14). -/
def Cpu.pByte (r : Cpu) (b : Bool) : Byte :=
  BitVec.ofNat 8 (r.n.toNat * 128 + r.v.toNat * 64 + 32 + b.toNat * 16 + r.d.toNat * 8 + r.i.toNat * 4
    + r.z.toNat * 2 + r.c.toNat)

/-- `SetP(v)`: six flags from a pulled byte; its bits 5 and 4 are ignored (R15). -/
def State.setP (s : State) (v : Byte) : State :=
  { s with cpu := { s.cpu with
    n := v.getLsbD 7, v := v.getLsbD 6, d := v.getLsbD 3, i := v.getLsbD 2, z := v.getLsbD 1, c := v.getLsbD 0 } }

/-- `SetNZ(v)`: N is bit 7, Z whether the byte is zero (R16). -/
def State.setNZ (s : State) (v : Byte) : State :=
  { s with cpu := { s.cpu with n := v.getLsbD 7, z := decide (v = 0) } }

/-- The unbounded sum `t` of ADC, 0..511 (R146). -/
def addSum (a m : Byte) (c : Bool) : Nat := a.toNat + m.toNat + c.toNat

/-- The result `r = u8(t)` of ADC (R146). -/
def addResult (a m : Byte) (c : Bool) : Byte := BitVec.ofNat 8 (addSum a m c)

/-- C of ADC: the carry out of bit 7 (R146). -/
def addCarry (a m : Byte) (c : Bool) : Bool := decide (255 < addSum a m c)

/-- V of ADC: A and m have the same sign and r has the other (R146). -/
def addOverflow (a m : Byte) (c : Bool) : Bool :=
  decide ((a ^^^ addResult a m c) &&& (m ^^^ addResult a m c) &&& 0x80 ≠ 0)

/-- ADC's effect on A and the flags; D is ignored (R145, R146). -/
def State.adc (s : State) (m : Byte) : State :=
  ((((s.setC (addCarry s.cpu.a m s.cpu.c)).setV (addOverflow s.cpu.a m s.cpu.c)).setA
    (addResult s.cpu.a m s.cpu.c)).setNZ (addResult s.cpu.a m s.cpu.c))

/-- SBC's effect: ADC of the one's complement of the operand (R147). -/
def State.sbc (s : State) (m : Byte) : State := s.adc (m ^^^ 0xFF)

/-- The compare of a register with an operand: C is no borrow, Z equality, N bit 7 of the difference (R148 to R150). -/
def State.compare (s : State) (reg m : Byte) : State :=
  ((s.setC (decide (m.toNat ≤ reg.toNat))).setZ (decide (reg = m))).setN ((reg - m).getLsbD 7)

/-- BIT: Z from `A & m`, N and V from the operand's bits 7 and 6 (R168). -/
def State.bitTest (s : State) (m : Byte) : State :=
  ((s.setZ (decide (s.cpu.a &&& m = 0))).setN (m.getLsbD 7)).setV (m.getLsbD 6)

/-- ASL: the result and the state with C, N, Z (R169). -/
def State.asl (s : State) (v : Byte) : Byte × State :=
  (v <<< 1, (s.setC (v.getLsbD 7)).setNZ (v <<< 1))

/-- LSR (R170). -/
def State.lsr (s : State) (v : Byte) : Byte × State :=
  (v >>> 1, (s.setC (v.getLsbD 0)).setNZ (v >>> 1))

/-- The result of ROL: old C enters at bit 0 (R171). -/
def rolResult (v : Byte) (c : Bool) : Byte := (v <<< 1) ||| (BitVec.ofBool c).setWidth 8

/-- ROL (R171). -/
def State.rol (s : State) (v : Byte) : Byte × State :=
  (rolResult v s.cpu.c, (s.setC (v.getLsbD 7)).setNZ (rolResult v s.cpu.c))

/-- The result of ROR: old C enters at bit 7 (R172). -/
def rorResult (v : Byte) (c : Bool) : Byte := (v >>> 1) ||| ((BitVec.ofBool c).setWidth 8 <<< 7)

/-- ROR (R172). -/
def State.ror (s : State) (v : Byte) : Byte × State :=
  (rorResult v s.cpu.c, (s.setC (v.getLsbD 0)).setNZ (rorResult v s.cpu.c))

/-- INC's result and flags; C and V unchanged (R151). -/
def State.inc (s : State) (v : Byte) : Byte × State := (v + 1, s.setNZ (v + 1))

/-- DEC's result and flags; C and V unchanged (R152). -/
def State.dec (s : State) (v : Byte) : Byte × State := (v - 1, s.setNZ (v - 1))

end Sys2Proof.Machine
end

