-- ==== Sys2Proof/Machine/Ops.lean ====
section
/-! DEFINITION. The named operations over memory and registers: the CPU bus (R41, R42), the stack (R12), taking an
exception and returning from one (R222 to R226, R211), reset and power (R226, R246), and the OAM DMA engine's step
(R318). -/

namespace Sys2Proof.Machine

/-- A PRG ROM byte as the CPU sees it through the MMC3 (R47, R338). -/
def State.prgByte (s : State) (a : Addr) : Byte := s.prg.read (s.mmc3.prgOffset a)

/-- The storage index of an internal RAM address: `addr & 0x07FF` (R43). -/
def ramIndex (a : Addr) : Nat := a.toNat % 0x800

/-- `MemRead(addr, 1)`: one CPU bus read, decoded by R41. -/
def memRead (a : Addr) (s : State) : Except Refusal (Byte × State) :=
  if a.toNat < 0x2000 then .ok (s.ram.read (ramIndex a), s)
  else if a.toNat < 0x4000 then s.readPpuReg (a.toNat % 8)
  else if a.toNat < 0x4020 then .ok (s.readIo a.toNat)
  else if a.toNat < 0x6000 then .ok s.openBus
  else if a.toNat < 0x8000 then
    if s.mmc3.wramEnabled then .ok (s.wram.read (a.toNat - 0x6000), s) else .ok s.openBus
  else .ok (s.prgByte a, s)

/-- `MemWrite(addr, 1, v)`: one CPU bus write, decoded by R42. -/
def memWrite (a : Addr) (v : Byte) (s : State) : Except Refusal State :=
  if a.toNat < 0x2000 then .ok (s.setRam (s.ram.write (ramIndex a) v))
  else if a.toNat < 0x4000 then s.writePpuReg (a.toNat % 8) v
  else if a.toNat < 0x4020 then s.writeIo a.toNat v
  else if a.toNat < 0x6000 then .ok s
  else if a.toNat < 0x8000 then
    if s.mmc3.wramWritable then .ok (s.setWram (s.wram.write (a.toNat - 0x6000) v)) else .ok s
  else .ok (s.setMmc3 (s.mmc3.writeReg a v))

/-- `Read16` of a vector: ROM bytes, low byte first (R49, R50). -/
def State.vector (s : State) (vec : Addr) : Addr := wordOf (s.prgByte vec) (s.prgByte (vec + 1))

/-- The RAM byte the stack pointer value designates, $0100 + S (R12). -/
def stackIndex (sp : Byte) : Nat := 0x100 + sp.toNat

/-- `Push(v)`: store, then decrement S modulo 256 (R12). -/
def State.push (s : State) (v : Byte) : State :=
  (s.setRam (s.ram.write (stackIndex s.cpu.sp) v)).setSp (s.cpu.sp - 1)

/-- The byte `Pull()` gives: S is incremented modulo 256 first (R12). -/
def State.pullByte (s : State) : Byte := s.ram.read (stackIndex (s.cpu.sp + 1))

/-- The state after `Pull()` (R12). -/
def State.pulled (s : State) : State := s.setSp (s.cpu.sp + 1)

/-- TAKING AN EXCEPTION, `Enter(ret, b, vec)` (R222): push the high and the low byte of the return address and
`P_byte(b)`, set I, load PC from the vector. -/
def State.enter (s : State) (ret : Addr) (b : Bool) (vec : Addr) : State :=
  let pushed := ((s.push (hi ret)).push (lo ret)).push (s.cpu.pByte b)
  (pushed.setI true).setPc (pushed.vector vec)

/-- `raise Brk` (R210, R222): PC is past the opcode, the byte after it is skipped on return. -/
def State.takeBrk (s : State) : State := s.enter (s.cpu.pc + 1) true 0xFFFE

/-- `take Irq` (R223). -/
def State.takeIrq (s : State) : State := s.enter s.cpu.pc false 0xFFFE

/-- `take Nmi` (R224): the latch is cleared, then the entry. -/
def State.takeNmi (s : State) : State := (s.setNmiPending false).enter s.cpu.pc false 0xFFFA

/-- RETURNING FROM AN EXCEPTION (R211, R236): pull P, PC low, PC high; no + 1. -/
def State.returnFromInterrupt (s : State) : State :=
  let flags := (s.pulled).setP s.pullByte
  let low := flags.pulled
  low.pulled.setPc (wordOf flags.pullByte low.pullByte)

/-- `take Reset` by the reset button (R226, R385, R386; log 4): S - 3 with no stack write, I = 1, no NMI pending, PC
from $FFFC, no DMA, PPUCTRL = PPUMASK = $00, warm-up begins again (R396), the APU is silenced and its IRQ facts count
from here (R229). -/
def State.takeReset (s : State) : State :=
  { s with
    cpu := { s.cpu with sp := s.cpu.sp - 3, i := true, nmiPending := false, pc := s.vector 0xFFFC }
    dma := { s.dma with active := false }
    ppu := { s.ppu with ctrl := 0x00, mask := 0x00, vblanksSeen := 0 }
    apu := { s.apu.record 0x4015 0x00 with frameIrqInhibit := false, dmcIrq := false } }

/-- Power off and on (R246, R389): the image and the battery-backed WRAM stay; the host's own data go on. -/
def State.powerCycle (s : State) : State :=
  { State.powerOn s.prg s.chr s.wram with
    fresh := s.fresh, timed := s.timed, inputs := s.inputs
    pads := { Pads.powerOn with
      standard := s.pads.standard, buttons1 := s.pads.buttons1, buttons2 := s.pads.buttons2 } }

/-- `irq_line`: the OR of every IRQ source's pending bit (R228). -/
def State.irqLine (s : State) : Bool := s.mmc3.irqPending || s.apu.irq

/-- The CPU address the DMA engine reads next, `d ++ i` (R318). -/
def Dma.source (d : Dma) : Addr := wordOf d.index d.page

/-- The state after the DMA engine has stored one byte in OAM (R318): `OAM[oamaddr] <- b; oamaddr <- oamaddr + 1`. -/
def State.dmaStore (s : State) (b : Byte) : State :=
  (s.setPpu { s.ppu with oam := s.ppu.oam.write s.ppu.oamAddr.toNat b, oamAddr := s.ppu.oamAddr + 1 }).setDma
    { s.dma with index := s.dma.index + 1, active := decide (s.dma.index ≠ 0xFF) }

/-- One step of the OAM DMA engine: one byte of the page (R318; log 26). -/
def State.dmaStep (s : State) : Except Refusal State :=
  match memRead s.dma.source s with
  | .ok (b, s1) => .ok (s1.dmaStore b)
  | .error e => .error e

end Sys2Proof.Machine
end

