-- ==== Sys2Proof/Machine/Operands.lean ====
section
/-! DEFINITION. Every operand form (40_addressing_modes.md): the effective address of each mode, the refusals of
20_memory.md R58, and the shapes an instruction's meaning takes over them (read, store, read-modify-write, branch). -/

namespace Sys2Proof.Machine

/-- What a meaning answers. -/
abbrev Result := Host.Outcome State Fault Refusal

/-- Zero Page: `EA = zext_16(b1)` (R104). -/
def eaZp (p : Byte) : Addr := p.setWidth 16

/-- Zero Page,X and Zero Page,Y: `EA = zext_16(u8(b1 + index))` (R105, R106). -/
def eaZpIndexed (p index : Byte) : Addr := (p + index).setWidth 16

/-- Absolute,X, Absolute,Y and the last step of (Indirect),Y: `EA = u16(base + index)` (R108, R109, R112). -/
def eaIndexed (base : Addr) (index : Byte) : Addr := base + index.setWidth 16

/-- The RAM byte at a zero-page address. -/
def State.zpByte (s : State) (p : Byte) : Byte := s.ram.read p.toNat

/-- `Read16zp(p)`: the 16-bit pointer at a zero-page address, its high byte's address wrapping inside page zero
(R111, R112). -/
def State.zpWord (s : State) (p : Byte) : Addr := wordOf (s.zpByte p) (s.zpByte (p + 1))

/-- (Indirect,X): the pointer at zero page `u8(b1 + X)` (R111). -/
def State.eaIndX (s : State) (p : Byte) : Addr := s.zpWord (p + s.cpu.x)

/-- (Indirect),Y: the base, the pointer at zero page `b1` (R112). -/
def State.baseIndY (s : State) (p : Byte) : Addr := s.zpWord p

/-- `uncarried = hi(base) ++ u8(lo(base) + index)` (R58). -/
def uncarried (base : Addr) (index : Byte) : Addr := wordOf (lo base + index) (hi base)

/-- The index addition carries into the high byte: the access crosses a page (R108, R413). -/
def indexCarries (base : Addr) (index : Byte) : Bool := decide (256 ≤ (lo base).toNat + index.toNat)

/-- `RS`, the read-sensitive addresses of R58. -/
def readSensitive (a : Addr) : Bool :=
  (decide (0x2000 ≤ a.toNat) && decide (a.toNat ≤ 0x3FFF)
    && (decide (a.toNat % 8 = 2) || decide (a.toNat % 8 = 4) || decide (a.toNat % 8 = 7)))
  || decide (a = 0x4015) || decide (a = 0x4016) || decide (a = 0x4017)

/-- R58(i): the addresses a read-modify-write instruction is refused on. -/
def modifyRefused (a : Addr) : Bool :=
  (decide (0x2000 ≤ a.toNat) && decide (a.toNat ≤ 0x5FFF)) || decide (0x8000 ≤ a.toNat)

/-- The operand read of an indexed mode: refused where R58(iii) says, else one read at `EA`. -/
def readIndexed (base : Addr) (index : Byte) (s : State) : Except Refusal (Byte × State) :=
  if indexCarries base index && readSensitive (uncarried base index) then
    .error (.indexedReadTouchesDevice (uncarried base index))
  else memRead (eaIndexed base index) s

/-- The store of an indexed mode: refused where R58(ii) says, else one write at `EA`. -/
def writeIndexed (base : Addr) (index v : Byte) (s : State) : Except Refusal State :=
  if readSensitive (uncarried base index) then .error (.indexedStoreTouchesDevice (uncarried base index))
  else memWrite (eaIndexed base index) v s

/-- Zero Page operand (R104). -/
def readZp (p : Byte) (s : State) : Except Refusal (Byte × State) := memRead (eaZp p) s
/-- Zero Page,X operand (R105). -/
def readZpX (p : Byte) (s : State) : Except Refusal (Byte × State) := memRead (eaZpIndexed p s.cpu.x) s
/-- Zero Page,Y operand (R106). -/
def readZpY (p : Byte) (s : State) : Except Refusal (Byte × State) := memRead (eaZpIndexed p s.cpu.y) s
/-- Absolute operand (R107). -/
def readAbs (a : Addr) (s : State) : Except Refusal (Byte × State) := memRead a s
/-- Absolute,X operand (R108). -/
def readAbsX (a : Addr) (s : State) : Except Refusal (Byte × State) := readIndexed a s.cpu.x s
/-- Absolute,Y operand (R109). -/
def readAbsY (a : Addr) (s : State) : Except Refusal (Byte × State) := readIndexed a s.cpu.y s
/-- (Indirect,X) operand (R111). -/
def readIndX (p : Byte) (s : State) : Except Refusal (Byte × State) := memRead (s.eaIndX p) s
/-- (Indirect),Y operand (R112). -/
def readIndY (p : Byte) (s : State) : Except Refusal (Byte × State) := readIndexed (s.baseIndY p) s.cpu.y s

/-- A read instruction: the operand, then the effect it has with that byte (R100). -/
def onRead (operand : Except Refusal (Byte × State)) (effect : State → Byte → State) : Result :=
  match operand with
  | .ok (m, s) => .next (effect s m)
  | .error e => .refused e

/-- A store instruction: the write is the whole effect (R100). -/
def onWrite (written : Except Refusal State) : Result :=
  match written with
  | .ok s => .next s
  | .error e => .refused e

/-- A read-modify-write instruction at `EA`: refused where R58(i) says, else one read, the operation with its flags,
one write (R100). -/
def onModify (op : State → Byte → Byte × State) (ea : Addr) (s : State) : Result :=
  if modifyRefused ea then .refused (.modifyOnDeviceOrRom ea)
  else
    match memRead ea s with
    | .error e => .refused e
    | .ok (m, s1) => onWrite (memWrite ea (op s1 m).1 (op s1 m).2)

/-- The Accumulator form: A is operand and destination (R102). -/
def onAccumulator (op : State → Byte → Byte × State) (s : State) : Result :=
  .next ((op s s.cpu.a).2.setA (op s s.cpu.a).1)

/-- The target of a branch: `u16(PC + displacement)`, PC already at the next instruction (R87, R113). -/
def branchTarget (pc : Addr) (disp : Int) : Addr := pc + BitVec.ofInt 16 disp

/-- A conditional branch (R185). -/
def onBranch (condition : Bool) (disp : Int) (s : State) : Result :=
  .next (if condition then s.setPc (branchTarget s.cpu.pc disp) else s)

/-- The address of the high byte of an indirect jump's pointer: it wraps inside the pointer's page (R110). -/
def pointerHigh (ptr : Addr) : Addr := wordOf (lo ptr + 1) (hi ptr)

/-- The Indirect mode: the target, low byte from `ptr`, high byte from the same page (R110). -/
def readPointer (ptr : Addr) (s : State) : Except Refusal (Addr × State) :=
  match memRead ptr s with
  | .error e => .error e
  | .ok (low, s1) =>
    match memRead (pointerHigh ptr) s1 with
    | .error e => .error e
    | .ok (high, s2) => .ok (wordOf low high, s2)

end Sys2Proof.Machine
end

