-- ==== Sys2Proof/Machine/Arithmetic.lean ====
section
/-! DEFINITION. Arithmetic, compare, increment and decrement (43_arithmetic.md): one meaning for each opcode, over the shared operations. PC already stands
at the next instruction (30_encoding.md R84). -/

namespace Sys2Proof.Machine

/-- `ADC ($xx,X)` (R146, R111). -/
def execAdcIndX (p : Byte) (s : State) : Result := onRead (readIndX p s) State.adc

/-- `ADC $xx` (R146, R104). -/
def execAdcZp (p : Byte) (s : State) : Result := onRead (readZp p s) State.adc

/-- `ADC #$xx` (R146, R103). -/
def execAdcImm (m : Byte) (s : State) : Result := .next (State.adc s m)

/-- `ADC $xxxx` (R146, R107). -/
def execAdcAbs (a : Addr) (s : State) : Result := onRead (readAbs a s) State.adc

/-- `ADC ($xx),Y` (R146, R112). -/
def execAdcIndY (p : Byte) (s : State) : Result := onRead (readIndY p s) State.adc

/-- `ADC $xx,X` (R146, R105). -/
def execAdcZpX (p : Byte) (s : State) : Result := onRead (readZpX p s) State.adc

/-- `ADC $xxxx,Y` (R146, R109). -/
def execAdcAbsY (a : Addr) (s : State) : Result := onRead (readAbsY a s) State.adc

/-- `ADC $xxxx,X` (R146, R108). -/
def execAdcAbsX (a : Addr) (s : State) : Result := onRead (readAbsX a s) State.adc

/-- `SBC ($xx,X)` (R147, R111). -/
def execSbcIndX (p : Byte) (s : State) : Result := onRead (readIndX p s) State.sbc

/-- `SBC $xx` (R147, R104). -/
def execSbcZp (p : Byte) (s : State) : Result := onRead (readZp p s) State.sbc

/-- `SBC #$xx` (R147, R103). -/
def execSbcImm (m : Byte) (s : State) : Result := .next (State.sbc s m)

/-- `SBC $xxxx` (R147, R107). -/
def execSbcAbs (a : Addr) (s : State) : Result := onRead (readAbs a s) State.sbc

/-- `SBC ($xx),Y` (R147, R112). -/
def execSbcIndY (p : Byte) (s : State) : Result := onRead (readIndY p s) State.sbc

/-- `SBC $xx,X` (R147, R105). -/
def execSbcZpX (p : Byte) (s : State) : Result := onRead (readZpX p s) State.sbc

/-- `SBC $xxxx,Y` (R147, R109). -/
def execSbcAbsY (a : Addr) (s : State) : Result := onRead (readAbsY a s) State.sbc

/-- `SBC $xxxx,X` (R147, R108). -/
def execSbcAbsX (a : Addr) (s : State) : Result := onRead (readAbsX a s) State.sbc

/-- CMP with its operand (R148). -/
def State.cmp (s : State) (m : Byte) : State := s.compare s.cpu.a m

/-- `CMP ($xx,X)` (R148, R111). -/
def execCmpIndX (p : Byte) (s : State) : Result := onRead (readIndX p s) State.cmp

/-- `CMP $xx` (R148, R104). -/
def execCmpZp (p : Byte) (s : State) : Result := onRead (readZp p s) State.cmp

/-- `CMP #$xx` (R148, R103). -/
def execCmpImm (m : Byte) (s : State) : Result := .next (State.cmp s m)

/-- `CMP $xxxx` (R148, R107). -/
def execCmpAbs (a : Addr) (s : State) : Result := onRead (readAbs a s) State.cmp

/-- `CMP ($xx),Y` (R148, R112). -/
def execCmpIndY (p : Byte) (s : State) : Result := onRead (readIndY p s) State.cmp

/-- `CMP $xx,X` (R148, R105). -/
def execCmpZpX (p : Byte) (s : State) : Result := onRead (readZpX p s) State.cmp

/-- `CMP $xxxx,Y` (R148, R109). -/
def execCmpAbsY (a : Addr) (s : State) : Result := onRead (readAbsY a s) State.cmp

/-- `CMP $xxxx,X` (R148, R108). -/
def execCmpAbsX (a : Addr) (s : State) : Result := onRead (readAbsX a s) State.cmp

/-- CPX with its operand (R149). -/
def State.cpx (s : State) (m : Byte) : State := s.compare s.cpu.x m

/-- `CPX #$xx` (R149, R103). -/
def execCpxImm (m : Byte) (s : State) : Result := .next (State.cpx s m)

/-- `CPX $xx` (R149, R104). -/
def execCpxZp (p : Byte) (s : State) : Result := onRead (readZp p s) State.cpx

/-- `CPX $xxxx` (R149, R107). -/
def execCpxAbs (a : Addr) (s : State) : Result := onRead (readAbs a s) State.cpx

/-- CPY with its operand (R150). -/
def State.cpy (s : State) (m : Byte) : State := s.compare s.cpu.y m

/-- `CPY #$xx` (R150, R103). -/
def execCpyImm (m : Byte) (s : State) : Result := .next (State.cpy s m)

/-- `CPY $xx` (R150, R104). -/
def execCpyZp (p : Byte) (s : State) : Result := onRead (readZp p s) State.cpy

/-- `CPY $xxxx` (R150, R107). -/
def execCpyAbs (a : Addr) (s : State) : Result := onRead (readAbs a s) State.cpy

/-- `INC $xx` (R151, R104). -/
def execIncZp (p : Byte) (s : State) : Result := onModify State.inc (eaZp p) s

/-- `INC $xxxx` (R151, R107). -/
def execIncAbs (a : Addr) (s : State) : Result := onModify State.inc a s

/-- `INC $xx,X` (R151, R105). -/
def execIncZpX (p : Byte) (s : State) : Result := onModify State.inc (eaZpIndexed p s.cpu.x) s

/-- `INC $xxxx,X` (R151, R108). -/
def execIncAbsX (a : Addr) (s : State) : Result := onModify State.inc (eaIndexed a s.cpu.x) s

/-- `DEC $xx` (R152, R104). -/
def execDecZp (p : Byte) (s : State) : Result := onModify State.dec (eaZp p) s

/-- `DEC $xxxx` (R152, R107). -/
def execDecAbs (a : Addr) (s : State) : Result := onModify State.dec a s

/-- `DEC $xx,X` (R152, R105). -/
def execDecZpX (p : Byte) (s : State) : Result := onModify State.dec (eaZpIndexed p s.cpu.x) s

/-- `DEC $xxxx,X` (R152, R108). -/
def execDecAbsX (a : Addr) (s : State) : Result := onModify State.dec (eaIndexed a s.cpu.x) s

/-- `INX` (R153, R101): `X <- u8(X + 1); SetNZ(X)`. -/
def execInx (s : State) : Result := .next ((s.inc s.cpu.x).2.setX (s.inc s.cpu.x).1)

/-- `DEX` (R154, R101): `X <- u8(X - 1); SetNZ(X)`. -/
def execDex (s : State) : Result := .next ((s.dec s.cpu.x).2.setX (s.dec s.cpu.x).1)

/-- `INY` (R155, R101): `Y <- u8(Y + 1); SetNZ(Y)`. -/
def execIny (s : State) : Result := .next ((s.inc s.cpu.y).2.setY (s.inc s.cpu.y).1)

/-- `DEY` (R156, R101): `Y <- u8(Y - 1); SetNZ(Y)`. -/
def execDey (s : State) : Result := .next ((s.dec s.cpu.y).2.setY (s.dec s.cpu.y).1)

end Sys2Proof.Machine
end

