-- ==== Sys2Proof/Machine/ControlFlow.lean ====
section
/-! DEFINITION. Jumps, calls and branches (45_control_flow.md): one meaning for each opcode, over the shared operations. PC already stands
at the next instruction (30_encoding.md R84). -/

namespace Sys2Proof.Machine

/-- `JMP $xxxx` (R180, R107): `pc <- b2 ++ b1`. -/
def execJmpAbs (a : Addr) (s : State) : Result := .next (s.setPc a)

/-- `JMP ($xxxx)` (R181, R110): the target through a pointer. -/
def execJmpInd (a : Addr) (s : State) : Result :=
  match readPointer a s with
  | .ok (target, s1) => .next (s1.setPc target)
  | .error e => .refused e

/-- `JSR $xxxx` (R183, R107): push `PC - 1`, high byte first; `pc <- b2 ++ b1`. -/
def execJsr (a : Addr) (s : State) : Result := .next (((s.push (hi (s.cpu.pc - 1))).push (lo (s.cpu.pc - 1))).setPc a)

/-- `RTS` (R184, R101): pull PC low, then high; `+ 1`. -/
def execRts (s : State) : Result := .next (s.pulled.pulled.setPc (wordOf s.pullByte s.pulled.pullByte + 1))

/-- `BCC label` (R186, R113): taken where `C = 0`. -/
def execBcc (disp : Int) (s : State) : Result := onBranch (!s.cpu.c) disp s

/-- `BCS label` (R187, R113): taken where `C = 1`. -/
def execBcs (disp : Int) (s : State) : Result := onBranch s.cpu.c disp s

/-- `BEQ label` (R188, R113): taken where `Z = 1`. -/
def execBeq (disp : Int) (s : State) : Result := onBranch s.cpu.z disp s

/-- `BNE label` (R189, R113): taken where `Z = 0`. -/
def execBne (disp : Int) (s : State) : Result := onBranch (!s.cpu.z) disp s

/-- `BMI label` (R190, R113): taken where `N = 1`. -/
def execBmi (disp : Int) (s : State) : Result := onBranch s.cpu.n disp s

/-- `BPL label` (R191, R113): taken where `N = 0`. -/
def execBpl (disp : Int) (s : State) : Result := onBranch (!s.cpu.n) disp s

/-- `BVC label` (R192, R113): taken where `V = 0`. -/
def execBvc (disp : Int) (s : State) : Result := onBranch (!s.cpu.v) disp s

/-- `BVS label` (R193, R113): taken where `V = 1`. -/
def execBvs (disp : Int) (s : State) : Result := onBranch s.cpu.v disp s

end Sys2Proof.Machine
end

