-- ==== Sys2Proof/Machine/LoadStore.lean ====
section
/-! DEFINITION. Loads and stores (41_load_store.md): one meaning for each opcode, over the shared operations. PC already stands
at the next instruction (30_encoding.md R84). -/

namespace Sys2Proof.Machine

/-- LDA with its operand: `A <- m; SetNZ(m)` (R120). -/
def State.lda (s : State) (m : Byte) : State := (s.setA m).setNZ m

/-- `LDA ($xx,X)` (R120, R111). -/
def execLdaIndX (p : Byte) (s : State) : Result := onRead (readIndX p s) State.lda

/-- `LDA $xx` (R120, R104). -/
def execLdaZp (p : Byte) (s : State) : Result := onRead (readZp p s) State.lda

/-- `LDA #$xx` (R120, R103). -/
def execLdaImm (m : Byte) (s : State) : Result := .next (State.lda s m)

/-- `LDA $xxxx` (R120, R107). -/
def execLdaAbs (a : Addr) (s : State) : Result := onRead (readAbs a s) State.lda

/-- `LDA ($xx),Y` (R120, R112). -/
def execLdaIndY (p : Byte) (s : State) : Result := onRead (readIndY p s) State.lda

/-- `LDA $xx,X` (R120, R105). -/
def execLdaZpX (p : Byte) (s : State) : Result := onRead (readZpX p s) State.lda

/-- `LDA $xxxx,Y` (R120, R109). -/
def execLdaAbsY (a : Addr) (s : State) : Result := onRead (readAbsY a s) State.lda

/-- `LDA $xxxx,X` (R120, R108). -/
def execLdaAbsX (a : Addr) (s : State) : Result := onRead (readAbsX a s) State.lda

/-- LDX with its operand: `X <- m; SetNZ(m)` (R121). -/
def State.ldx (s : State) (m : Byte) : State := (s.setX m).setNZ m

/-- `LDX #$xx` (R121, R103). -/
def execLdxImm (m : Byte) (s : State) : Result := .next (State.ldx s m)

/-- `LDX $xx` (R121, R104). -/
def execLdxZp (p : Byte) (s : State) : Result := onRead (readZp p s) State.ldx

/-- `LDX $xxxx` (R121, R107). -/
def execLdxAbs (a : Addr) (s : State) : Result := onRead (readAbs a s) State.ldx

/-- `LDX $xx,Y` (R121, R106). -/
def execLdxZpY (p : Byte) (s : State) : Result := onRead (readZpY p s) State.ldx

/-- `LDX $xxxx,Y` (R121, R109). -/
def execLdxAbsY (a : Addr) (s : State) : Result := onRead (readAbsY a s) State.ldx

/-- LDY with its operand: `Y <- m; SetNZ(m)` (R122). -/
def State.ldy (s : State) (m : Byte) : State := (s.setY m).setNZ m

/-- `LDY #$xx` (R122, R103). -/
def execLdyImm (m : Byte) (s : State) : Result := .next (State.ldy s m)

/-- `LDY $xx` (R122, R104). -/
def execLdyZp (p : Byte) (s : State) : Result := onRead (readZp p s) State.ldy

/-- `LDY $xxxx` (R122, R107). -/
def execLdyAbs (a : Addr) (s : State) : Result := onRead (readAbs a s) State.ldy

/-- `LDY $xx,X` (R122, R105). -/
def execLdyZpX (p : Byte) (s : State) : Result := onRead (readZpX p s) State.ldy

/-- `LDY $xxxx,X` (R122, R108). -/
def execLdyAbsX (a : Addr) (s : State) : Result := onRead (readAbsX a s) State.ldy

/-- `STA ($xx,X)` (R123, R111). -/
def execStaIndX (p : Byte) (s : State) : Result := onWrite (memWrite (s.eaIndX p) s.cpu.a s)

/-- `STA $xx` (R123, R104). -/
def execStaZp (p : Byte) (s : State) : Result := onWrite (memWrite (eaZp p) s.cpu.a s)

/-- `STA $xxxx` (R123, R107). -/
def execStaAbs (a : Addr) (s : State) : Result := onWrite (memWrite a s.cpu.a s)

/-- `STA ($xx),Y` (R123, R112). -/
def execStaIndY (p : Byte) (s : State) : Result := onWrite (writeIndexed (s.baseIndY p) s.cpu.y s.cpu.a s)

/-- `STA $xx,X` (R123, R105). -/
def execStaZpX (p : Byte) (s : State) : Result := onWrite (memWrite (eaZpIndexed p s.cpu.x) s.cpu.a s)

/-- `STA $xxxx,Y` (R123, R109). -/
def execStaAbsY (a : Addr) (s : State) : Result := onWrite (writeIndexed a s.cpu.y s.cpu.a s)

/-- `STA $xxxx,X` (R123, R108). -/
def execStaAbsX (a : Addr) (s : State) : Result := onWrite (writeIndexed a s.cpu.x s.cpu.a s)

/-- `STX $xx` (R124, R104). -/
def execStxZp (p : Byte) (s : State) : Result := onWrite (memWrite (eaZp p) s.cpu.x s)

/-- `STX $xxxx` (R124, R107). -/
def execStxAbs (a : Addr) (s : State) : Result := onWrite (memWrite a s.cpu.x s)

/-- `STX $xx,Y` (R124, R106). -/
def execStxZpY (p : Byte) (s : State) : Result := onWrite (memWrite (eaZpIndexed p s.cpu.y) s.cpu.x s)

/-- `STY $xx` (R125, R104). -/
def execStyZp (p : Byte) (s : State) : Result := onWrite (memWrite (eaZp p) s.cpu.y s)

/-- `STY $xxxx` (R125, R107). -/
def execStyAbs (a : Addr) (s : State) : Result := onWrite (memWrite a s.cpu.y s)

/-- `STY $xx,X` (R125, R105). -/
def execStyZpX (p : Byte) (s : State) : Result := onWrite (memWrite (eaZpIndexed p s.cpu.x) s.cpu.y s)

end Sys2Proof.Machine
end

