-- ==== Sys2Proof/Machine/LogicShift.lean ====
section
/-! DEFINITION. Logic, bit test, shifts and rotates (44_logic_shift.md): one meaning for each opcode, over the shared operations. PC already stands
at the next instruction (30_encoding.md R84). -/

namespace Sys2Proof.Machine

/-- AND with its operand: `A <- A & m; SetNZ(A)` (R165). -/
def State.and (s : State) (m : Byte) : State := (s.setA (s.cpu.a &&& m)).setNZ (s.cpu.a &&& m)

/-- `AND ($xx,X)` (R165, R111). -/
def execAndIndX (p : Byte) (s : State) : Result := onRead (readIndX p s) State.and

/-- `AND $xx` (R165, R104). -/
def execAndZp (p : Byte) (s : State) : Result := onRead (readZp p s) State.and

/-- `AND #$xx` (R165, R103). -/
def execAndImm (m : Byte) (s : State) : Result := .next (State.and s m)

/-- `AND $xxxx` (R165, R107). -/
def execAndAbs (a : Addr) (s : State) : Result := onRead (readAbs a s) State.and

/-- `AND ($xx),Y` (R165, R112). -/
def execAndIndY (p : Byte) (s : State) : Result := onRead (readIndY p s) State.and

/-- `AND $xx,X` (R165, R105). -/
def execAndZpX (p : Byte) (s : State) : Result := onRead (readZpX p s) State.and

/-- `AND $xxxx,Y` (R165, R109). -/
def execAndAbsY (a : Addr) (s : State) : Result := onRead (readAbsY a s) State.and

/-- `AND $xxxx,X` (R165, R108). -/
def execAndAbsX (a : Addr) (s : State) : Result := onRead (readAbsX a s) State.and

/-- ORA with its operand: `A <- A | m; SetNZ(A)` (R166). -/
def State.ora (s : State) (m : Byte) : State := (s.setA (s.cpu.a ||| m)).setNZ (s.cpu.a ||| m)

/-- `ORA ($xx,X)` (R166, R111). -/
def execOraIndX (p : Byte) (s : State) : Result := onRead (readIndX p s) State.ora

/-- `ORA $xx` (R166, R104). -/
def execOraZp (p : Byte) (s : State) : Result := onRead (readZp p s) State.ora

/-- `ORA #$xx` (R166, R103). -/
def execOraImm (m : Byte) (s : State) : Result := .next (State.ora s m)

/-- `ORA $xxxx` (R166, R107). -/
def execOraAbs (a : Addr) (s : State) : Result := onRead (readAbs a s) State.ora

/-- `ORA ($xx),Y` (R166, R112). -/
def execOraIndY (p : Byte) (s : State) : Result := onRead (readIndY p s) State.ora

/-- `ORA $xx,X` (R166, R105). -/
def execOraZpX (p : Byte) (s : State) : Result := onRead (readZpX p s) State.ora

/-- `ORA $xxxx,Y` (R166, R109). -/
def execOraAbsY (a : Addr) (s : State) : Result := onRead (readAbsY a s) State.ora

/-- `ORA $xxxx,X` (R166, R108). -/
def execOraAbsX (a : Addr) (s : State) : Result := onRead (readAbsX a s) State.ora

/-- EOR with its operand: `A <- A ^ m; SetNZ(A)` (R167). -/
def State.eor (s : State) (m : Byte) : State := (s.setA (s.cpu.a ^^^ m)).setNZ (s.cpu.a ^^^ m)

/-- `EOR ($xx,X)` (R167, R111). -/
def execEorIndX (p : Byte) (s : State) : Result := onRead (readIndX p s) State.eor

/-- `EOR $xx` (R167, R104). -/
def execEorZp (p : Byte) (s : State) : Result := onRead (readZp p s) State.eor

/-- `EOR #$xx` (R167, R103). -/
def execEorImm (m : Byte) (s : State) : Result := .next (State.eor s m)

/-- `EOR $xxxx` (R167, R107). -/
def execEorAbs (a : Addr) (s : State) : Result := onRead (readAbs a s) State.eor

/-- `EOR ($xx),Y` (R167, R112). -/
def execEorIndY (p : Byte) (s : State) : Result := onRead (readIndY p s) State.eor

/-- `EOR $xx,X` (R167, R105). -/
def execEorZpX (p : Byte) (s : State) : Result := onRead (readZpX p s) State.eor

/-- `EOR $xxxx,Y` (R167, R109). -/
def execEorAbsY (a : Addr) (s : State) : Result := onRead (readAbsY a s) State.eor

/-- `EOR $xxxx,X` (R167, R108). -/
def execEorAbsX (a : Addr) (s : State) : Result := onRead (readAbsX a s) State.eor

/-- `BIT $xx` (R168, R104). -/
def execBitZp (p : Byte) (s : State) : Result := onRead (readZp p s) State.bitTest

/-- `BIT $xxxx` (R168, R107). -/
def execBitAbs (a : Addr) (s : State) : Result := onRead (readAbs a s) State.bitTest

/-- `ASL $xx` (R169, R104). -/
def execAslZp (p : Byte) (s : State) : Result := onModify State.asl (eaZp p) s

/-- `ASL A` (R169, R102). -/
def execAslAcc (s : State) : Result := onAccumulator State.asl s

/-- `ASL $xxxx` (R169, R107). -/
def execAslAbs (a : Addr) (s : State) : Result := onModify State.asl a s

/-- `ASL $xx,X` (R169, R105). -/
def execAslZpX (p : Byte) (s : State) : Result := onModify State.asl (eaZpIndexed p s.cpu.x) s

/-- `ASL $xxxx,X` (R169, R108). -/
def execAslAbsX (a : Addr) (s : State) : Result := onModify State.asl (eaIndexed a s.cpu.x) s

/-- `LSR $xx` (R170, R104). -/
def execLsrZp (p : Byte) (s : State) : Result := onModify State.lsr (eaZp p) s

/-- `LSR A` (R170, R102). -/
def execLsrAcc (s : State) : Result := onAccumulator State.lsr s

/-- `LSR $xxxx` (R170, R107). -/
def execLsrAbs (a : Addr) (s : State) : Result := onModify State.lsr a s

/-- `LSR $xx,X` (R170, R105). -/
def execLsrZpX (p : Byte) (s : State) : Result := onModify State.lsr (eaZpIndexed p s.cpu.x) s

/-- `LSR $xxxx,X` (R170, R108). -/
def execLsrAbsX (a : Addr) (s : State) : Result := onModify State.lsr (eaIndexed a s.cpu.x) s

/-- `ROL $xx` (R171, R104). -/
def execRolZp (p : Byte) (s : State) : Result := onModify State.rol (eaZp p) s

/-- `ROL A` (R171, R102). -/
def execRolAcc (s : State) : Result := onAccumulator State.rol s

/-- `ROL $xxxx` (R171, R107). -/
def execRolAbs (a : Addr) (s : State) : Result := onModify State.rol a s

/-- `ROL $xx,X` (R171, R105). -/
def execRolZpX (p : Byte) (s : State) : Result := onModify State.rol (eaZpIndexed p s.cpu.x) s

/-- `ROL $xxxx,X` (R171, R108). -/
def execRolAbsX (a : Addr) (s : State) : Result := onModify State.rol (eaIndexed a s.cpu.x) s

/-- `ROR $xx` (R172, R104). -/
def execRorZp (p : Byte) (s : State) : Result := onModify State.ror (eaZp p) s

/-- `ROR A` (R172, R102). -/
def execRorAcc (s : State) : Result := onAccumulator State.ror s

/-- `ROR $xxxx` (R172, R107). -/
def execRorAbs (a : Addr) (s : State) : Result := onModify State.ror a s

/-- `ROR $xx,X` (R172, R105). -/
def execRorZpX (p : Byte) (s : State) : Result := onModify State.ror (eaZpIndexed p s.cpu.x) s

/-- `ROR $xxxx,X` (R172, R108). -/
def execRorAbsX (a : Addr) (s : State) : Result := onModify State.ror (eaIndexed a s.cpu.x) s

end Sys2Proof.Machine
end

