-- ==== Sys2Proof/Machine/System.lean ====
section
/-! DEFINITION. Flag instructions, NOP, BRK and RTI (46_flags_system.md): one meaning for each opcode, over the shared operations. PC already stands
at the next instruction (30_encoding.md R84). -/

namespace Sys2Proof.Machine

/-- `CLC` (R200, R101): `C <- 0`. -/
def execClc (s : State) : Result := .next (s.setC false)

/-- `SEC` (R201, R101): `C <- 1`. -/
def execSec (s : State) : Result := .next (s.setC true)

/-- `CLI` (R202, R101): `I <- 0`. -/
def execCli (s : State) : Result := .next (s.setI false)

/-- `SEI` (R203, R101): `I <- 1`. -/
def execSei (s : State) : Result := .next (s.setI true)

/-- `CLD` (R204, R101): `D <- 0`. -/
def execCld (s : State) : Result := .next (s.setD false)

/-- `SED` (R205, R101): `D <- 1`. -/
def execSed (s : State) : Result := .next (s.setD true)

/-- `CLV` (R206, R101): `V <- 0`. -/
def execClv (s : State) : Result := .next (s.setV false)

/-- `NOP` (R207, R101): no effect beyond the fetch. -/
def execNop (s : State) : Result := .next s

/-- `BRK` (R210, R101): `raise Brk`, the entry of R222. -/
def execBrk (s : State) : Result := .next s.takeBrk

/-- `RTI` (R211, R101): pull P, then PC; no + 1. -/
def execRti (s : State) : Result := .next s.returnFromInterrupt

end Sys2Proof.Machine
end

