-- ==== Sys2Proof/Machine/TransferStack.lean ====
section
/-! DEFINITION. Register transfers and the stack instructions (42_transfer_stack.md): one meaning for each opcode, over the shared operations. PC already stands
at the next instruction (30_encoding.md R84). -/

namespace Sys2Proof.Machine

/-- `TAX` (R130, R101): `X <- A; SetNZ(X)`. -/
def execTax (s : State) : Result := .next ((s.setX s.cpu.a).setNZ s.cpu.a)

/-- `TAY` (R131, R101): `Y <- A; SetNZ(Y)`. -/
def execTay (s : State) : Result := .next ((s.setY s.cpu.a).setNZ s.cpu.a)

/-- `TXA` (R132, R101): `A <- X; SetNZ(A)`. -/
def execTxa (s : State) : Result := .next ((s.setA s.cpu.x).setNZ s.cpu.x)

/-- `TYA` (R133, R101): `A <- Y; SetNZ(A)`. -/
def execTya (s : State) : Result := .next ((s.setA s.cpu.y).setNZ s.cpu.y)

/-- `TSX` (R134, R101): `X <- S; SetNZ(X)`. -/
def execTsx (s : State) : Result := .next ((s.setX s.cpu.sp).setNZ s.cpu.sp)

/-- `TXS` (R135, R101): `S <- X`, no flag. -/
def execTxs (s : State) : Result := .next (s.setSp s.cpu.x)

/-- `PHA` (R136, R101): `Push(A)`. -/
def execPha (s : State) : Result := .next (s.push s.cpu.a)

/-- `PLA` (R137, R101): `A <- Pull(); SetNZ(A)`. -/
def execPla (s : State) : Result := .next ((s.pulled.setA s.pullByte).setNZ s.pullByte)

/-- `PHP` (R138, R101): `Push(P_byte(1))`. -/
def execPhp (s : State) : Result := .next (s.push (s.cpu.pByte true))

/-- `PLP` (R139, R101): `SetP(Pull())`. -/
def execPlp (s : State) : Result := .next (s.pulled.setP s.pullByte)

end Sys2Proof.Machine
end

