-- ==== Sys2Proof/Machine/Dispatch.lean ====
section
/-! DEFINITION. The dispatch: one arm for each instruction, each a direct call of its meaning. -/

namespace Sys2Proof.Machine

/-- The effect of an instruction on a state whose PC already stands at the next instruction (R84). -/
def exec (i : Instr) (s : State) : Host.Outcome State Fault Refusal :=
  match i with
  | .brk => Sys2Proof.Machine.execBrk s
  | .oraIndX p => Sys2Proof.Machine.execOraIndX p s
  | .oraZp p => Sys2Proof.Machine.execOraZp p s
  | .aslZp p => Sys2Proof.Machine.execAslZp p s
  | .php => Sys2Proof.Machine.execPhp s
  | .oraImm m => Sys2Proof.Machine.execOraImm m s
  | .aslAcc => Sys2Proof.Machine.execAslAcc s
  | .oraAbs a => Sys2Proof.Machine.execOraAbs a s
  | .aslAbs a => Sys2Proof.Machine.execAslAbs a s
  | .bpl disp => Sys2Proof.Machine.execBpl disp s
  | .oraIndY p => Sys2Proof.Machine.execOraIndY p s
  | .oraZpX p => Sys2Proof.Machine.execOraZpX p s
  | .aslZpX p => Sys2Proof.Machine.execAslZpX p s
  | .clc => Sys2Proof.Machine.execClc s
  | .oraAbsY a => Sys2Proof.Machine.execOraAbsY a s
  | .oraAbsX a => Sys2Proof.Machine.execOraAbsX a s
  | .aslAbsX a => Sys2Proof.Machine.execAslAbsX a s
  | .jsr a => Sys2Proof.Machine.execJsr a s
  | .andIndX p => Sys2Proof.Machine.execAndIndX p s
  | .bitZp p => Sys2Proof.Machine.execBitZp p s
  | .andZp p => Sys2Proof.Machine.execAndZp p s
  | .rolZp p => Sys2Proof.Machine.execRolZp p s
  | .plp => Sys2Proof.Machine.execPlp s
  | .andImm m => Sys2Proof.Machine.execAndImm m s
  | .rolAcc => Sys2Proof.Machine.execRolAcc s
  | .bitAbs a => Sys2Proof.Machine.execBitAbs a s
  | .andAbs a => Sys2Proof.Machine.execAndAbs a s
  | .rolAbs a => Sys2Proof.Machine.execRolAbs a s
  | .bmi disp => Sys2Proof.Machine.execBmi disp s
  | .andIndY p => Sys2Proof.Machine.execAndIndY p s
  | .andZpX p => Sys2Proof.Machine.execAndZpX p s
  | .rolZpX p => Sys2Proof.Machine.execRolZpX p s
  | .sec => Sys2Proof.Machine.execSec s
  | .andAbsY a => Sys2Proof.Machine.execAndAbsY a s
  | .andAbsX a => Sys2Proof.Machine.execAndAbsX a s
  | .rolAbsX a => Sys2Proof.Machine.execRolAbsX a s
  | .rti => Sys2Proof.Machine.execRti s
  | .eorIndX p => Sys2Proof.Machine.execEorIndX p s
  | .eorZp p => Sys2Proof.Machine.execEorZp p s
  | .lsrZp p => Sys2Proof.Machine.execLsrZp p s
  | .pha => Sys2Proof.Machine.execPha s
  | .eorImm m => Sys2Proof.Machine.execEorImm m s
  | .lsrAcc => Sys2Proof.Machine.execLsrAcc s
  | .jmpAbs a => Sys2Proof.Machine.execJmpAbs a s
  | .eorAbs a => Sys2Proof.Machine.execEorAbs a s
  | .lsrAbs a => Sys2Proof.Machine.execLsrAbs a s
  | .bvc disp => Sys2Proof.Machine.execBvc disp s
  | .eorIndY p => Sys2Proof.Machine.execEorIndY p s
  | .eorZpX p => Sys2Proof.Machine.execEorZpX p s
  | .lsrZpX p => Sys2Proof.Machine.execLsrZpX p s
  | .cli => Sys2Proof.Machine.execCli s
  | .eorAbsY a => Sys2Proof.Machine.execEorAbsY a s
  | .eorAbsX a => Sys2Proof.Machine.execEorAbsX a s
  | .lsrAbsX a => Sys2Proof.Machine.execLsrAbsX a s
  | .rts => Sys2Proof.Machine.execRts s
  | .adcIndX p => Sys2Proof.Machine.execAdcIndX p s
  | .adcZp p => Sys2Proof.Machine.execAdcZp p s
  | .rorZp p => Sys2Proof.Machine.execRorZp p s
  | .pla => Sys2Proof.Machine.execPla s
  | .adcImm m => Sys2Proof.Machine.execAdcImm m s
  | .rorAcc => Sys2Proof.Machine.execRorAcc s
  | .jmpInd a => Sys2Proof.Machine.execJmpInd a s
  | .adcAbs a => Sys2Proof.Machine.execAdcAbs a s
  | .rorAbs a => Sys2Proof.Machine.execRorAbs a s
  | .bvs disp => Sys2Proof.Machine.execBvs disp s
  | .adcIndY p => Sys2Proof.Machine.execAdcIndY p s
  | .adcZpX p => Sys2Proof.Machine.execAdcZpX p s
  | .rorZpX p => Sys2Proof.Machine.execRorZpX p s
  | .sei => Sys2Proof.Machine.execSei s
  | .adcAbsY a => Sys2Proof.Machine.execAdcAbsY a s
  | .adcAbsX a => Sys2Proof.Machine.execAdcAbsX a s
  | .rorAbsX a => Sys2Proof.Machine.execRorAbsX a s
  | .staIndX p => Sys2Proof.Machine.execStaIndX p s
  | .styZp p => Sys2Proof.Machine.execStyZp p s
  | .staZp p => Sys2Proof.Machine.execStaZp p s
  | .stxZp p => Sys2Proof.Machine.execStxZp p s
  | .dey => Sys2Proof.Machine.execDey s
  | .txa => Sys2Proof.Machine.execTxa s
  | .styAbs a => Sys2Proof.Machine.execStyAbs a s
  | .staAbs a => Sys2Proof.Machine.execStaAbs a s
  | .stxAbs a => Sys2Proof.Machine.execStxAbs a s
  | .bcc disp => Sys2Proof.Machine.execBcc disp s
  | .staIndY p => Sys2Proof.Machine.execStaIndY p s
  | .styZpX p => Sys2Proof.Machine.execStyZpX p s
  | .staZpX p => Sys2Proof.Machine.execStaZpX p s
  | .stxZpY p => Sys2Proof.Machine.execStxZpY p s
  | .tya => Sys2Proof.Machine.execTya s
  | .staAbsY a => Sys2Proof.Machine.execStaAbsY a s
  | .txs => Sys2Proof.Machine.execTxs s
  | .staAbsX a => Sys2Proof.Machine.execStaAbsX a s
  | .ldyImm m => Sys2Proof.Machine.execLdyImm m s
  | .ldaIndX p => Sys2Proof.Machine.execLdaIndX p s
  | .ldxImm m => Sys2Proof.Machine.execLdxImm m s
  | .ldyZp p => Sys2Proof.Machine.execLdyZp p s
  | .ldaZp p => Sys2Proof.Machine.execLdaZp p s
  | .ldxZp p => Sys2Proof.Machine.execLdxZp p s
  | .tay => Sys2Proof.Machine.execTay s
  | .ldaImm m => Sys2Proof.Machine.execLdaImm m s
  | .tax => Sys2Proof.Machine.execTax s
  | .ldyAbs a => Sys2Proof.Machine.execLdyAbs a s
  | .ldaAbs a => Sys2Proof.Machine.execLdaAbs a s
  | .ldxAbs a => Sys2Proof.Machine.execLdxAbs a s
  | .bcs disp => Sys2Proof.Machine.execBcs disp s
  | .ldaIndY p => Sys2Proof.Machine.execLdaIndY p s
  | .ldyZpX p => Sys2Proof.Machine.execLdyZpX p s
  | .ldaZpX p => Sys2Proof.Machine.execLdaZpX p s
  | .ldxZpY p => Sys2Proof.Machine.execLdxZpY p s
  | .clv => Sys2Proof.Machine.execClv s
  | .ldaAbsY a => Sys2Proof.Machine.execLdaAbsY a s
  | .tsx => Sys2Proof.Machine.execTsx s
  | .ldyAbsX a => Sys2Proof.Machine.execLdyAbsX a s
  | .ldaAbsX a => Sys2Proof.Machine.execLdaAbsX a s
  | .ldxAbsY a => Sys2Proof.Machine.execLdxAbsY a s
  | .cpyImm m => Sys2Proof.Machine.execCpyImm m s
  | .cmpIndX p => Sys2Proof.Machine.execCmpIndX p s
  | .cpyZp p => Sys2Proof.Machine.execCpyZp p s
  | .cmpZp p => Sys2Proof.Machine.execCmpZp p s
  | .decZp p => Sys2Proof.Machine.execDecZp p s
  | .iny => Sys2Proof.Machine.execIny s
  | .cmpImm m => Sys2Proof.Machine.execCmpImm m s
  | .dex => Sys2Proof.Machine.execDex s
  | .cpyAbs a => Sys2Proof.Machine.execCpyAbs a s
  | .cmpAbs a => Sys2Proof.Machine.execCmpAbs a s
  | .decAbs a => Sys2Proof.Machine.execDecAbs a s
  | .bne disp => Sys2Proof.Machine.execBne disp s
  | .cmpIndY p => Sys2Proof.Machine.execCmpIndY p s
  | .cmpZpX p => Sys2Proof.Machine.execCmpZpX p s
  | .decZpX p => Sys2Proof.Machine.execDecZpX p s
  | .cld => Sys2Proof.Machine.execCld s
  | .cmpAbsY a => Sys2Proof.Machine.execCmpAbsY a s
  | .cmpAbsX a => Sys2Proof.Machine.execCmpAbsX a s
  | .decAbsX a => Sys2Proof.Machine.execDecAbsX a s
  | .cpxImm m => Sys2Proof.Machine.execCpxImm m s
  | .sbcIndX p => Sys2Proof.Machine.execSbcIndX p s
  | .cpxZp p => Sys2Proof.Machine.execCpxZp p s
  | .sbcZp p => Sys2Proof.Machine.execSbcZp p s
  | .incZp p => Sys2Proof.Machine.execIncZp p s
  | .inx => Sys2Proof.Machine.execInx s
  | .sbcImm m => Sys2Proof.Machine.execSbcImm m s
  | .nop => Sys2Proof.Machine.execNop s
  | .cpxAbs a => Sys2Proof.Machine.execCpxAbs a s
  | .sbcAbs a => Sys2Proof.Machine.execSbcAbs a s
  | .incAbs a => Sys2Proof.Machine.execIncAbs a s
  | .beq disp => Sys2Proof.Machine.execBeq disp s
  | .sbcIndY p => Sys2Proof.Machine.execSbcIndY p s
  | .sbcZpX p => Sys2Proof.Machine.execSbcZpX p s
  | .incZpX p => Sys2Proof.Machine.execIncZpX p s
  | .sed => Sys2Proof.Machine.execSed s
  | .sbcAbsY a => Sys2Proof.Machine.execSbcAbsY a s
  | .sbcAbsX a => Sys2Proof.Machine.execSbcAbsX a s
  | .incAbsX a => Sys2Proof.Machine.execIncAbsX a s

end Sys2Proof.Machine
end

