-- ==== Sys2Proof/Machine/Timing.lean ====
section
/-! DEFINITION. Cycle counts (70_reset_and_hazards.md R410 to R415). They move the PPU only where `timed` holds
(R417); no instruction's effect depends on them (R9). -/

namespace Sys2Proof.Machine

/-- The "+" of the indexed read modes: one cycle more when the index addition crosses a page (R413). -/
def pageCrossCycle (base : Addr) (index : Byte) : Nat := if indexCarries base index then 1 else 0

/-- Branch timing: not taken 2, taken in the same page 3, taken across a page 4 (R412). -/
def branchCycles (taken : Bool) (disp : Int) (s : State) : Nat :=
  if taken then (if hi s.cpu.pc = hi (branchTarget s.cpu.pc disp) then 3 else 4) else 2

/-- The cycles of an instruction, on the state its meaning sees: PC at the next instruction (R411 to R413). -/
def cyclesOf (i : Instr) (s : State) : Nat :=
  match i with
  | .oraImm _ | .aslAcc | .clc | .andImm _ | .rolAcc | .sec | .eorImm _ | .lsrAcc
  | .cli | .adcImm _ | .rorAcc | .sei | .dey | .txa | .tya | .txs
  | .ldyImm _ | .ldxImm _ | .tay | .ldaImm _ | .tax | .clv | .tsx | .cpyImm _
  | .iny | .cmpImm _ | .dex | .cld | .cpxImm _ | .inx | .sbcImm _ | .nop
  | .sed => 2
  | .oraZp _ | .php | .bitZp _ | .andZp _ | .eorZp _ | .pha | .jmpAbs _ | .adcZp _
  | .styZp _ | .staZp _ | .stxZp _ | .ldyZp _ | .ldaZp _ | .ldxZp _ | .cpyZp _ | .cmpZp _
  | .cpxZp _ | .sbcZp _ => 3
  | .oraAbs _ | .oraZpX _ | .plp | .bitAbs _ | .andAbs _ | .andZpX _ | .eorAbs _ | .eorZpX _
  | .pla | .adcAbs _ | .adcZpX _ | .styAbs _ | .staAbs _ | .stxAbs _ | .styZpX _ | .staZpX _
  | .stxZpY _ | .ldyAbs _ | .ldaAbs _ | .ldxAbs _ | .ldyZpX _ | .ldaZpX _ | .ldxZpY _ | .cpyAbs _
  | .cmpAbs _ | .cmpZpX _ | .cpxAbs _ | .sbcAbs _ | .sbcZpX _ => 4
  | .aslZp _ | .rolZp _ | .lsrZp _ | .rorZp _ | .jmpInd _ | .staAbsY _ | .staAbsX _ | .decZp _
  | .incZp _ => 5
  | .oraIndX _ | .aslAbs _ | .aslZpX _ | .jsr _ | .andIndX _ | .rolAbs _ | .rolZpX _ | .rti
  | .eorIndX _ | .lsrAbs _ | .lsrZpX _ | .rts | .adcIndX _ | .rorAbs _ | .rorZpX _ | .staIndX _
  | .staIndY _ | .ldaIndX _ | .cmpIndX _ | .decAbs _ | .decZpX _ | .sbcIndX _ | .incAbs _ | .incZpX _ => 6
  | .brk | .aslAbsX _ | .rolAbsX _ | .lsrAbsX _ | .rorAbsX _ | .decAbsX _ | .incAbsX _ => 7
  | .bpl disp => branchCycles (!s.cpu.n) disp s
  | .oraIndY p => 5 + pageCrossCycle (s.baseIndY p) s.cpu.y
  | .oraAbsY a => 4 + pageCrossCycle a s.cpu.y
  | .oraAbsX a => 4 + pageCrossCycle a s.cpu.x
  | .bmi disp => branchCycles s.cpu.n disp s
  | .andIndY p => 5 + pageCrossCycle (s.baseIndY p) s.cpu.y
  | .andAbsY a => 4 + pageCrossCycle a s.cpu.y
  | .andAbsX a => 4 + pageCrossCycle a s.cpu.x
  | .bvc disp => branchCycles (!s.cpu.v) disp s
  | .eorIndY p => 5 + pageCrossCycle (s.baseIndY p) s.cpu.y
  | .eorAbsY a => 4 + pageCrossCycle a s.cpu.y
  | .eorAbsX a => 4 + pageCrossCycle a s.cpu.x
  | .bvs disp => branchCycles s.cpu.v disp s
  | .adcIndY p => 5 + pageCrossCycle (s.baseIndY p) s.cpu.y
  | .adcAbsY a => 4 + pageCrossCycle a s.cpu.y
  | .adcAbsX a => 4 + pageCrossCycle a s.cpu.x
  | .bcc disp => branchCycles (!s.cpu.c) disp s
  | .bcs disp => branchCycles s.cpu.c disp s
  | .ldaIndY p => 5 + pageCrossCycle (s.baseIndY p) s.cpu.y
  | .ldaAbsY a => 4 + pageCrossCycle a s.cpu.y
  | .ldyAbsX a => 4 + pageCrossCycle a s.cpu.x
  | .ldaAbsX a => 4 + pageCrossCycle a s.cpu.x
  | .ldxAbsY a => 4 + pageCrossCycle a s.cpu.y
  | .bne disp => branchCycles (!s.cpu.z) disp s
  | .cmpIndY p => 5 + pageCrossCycle (s.baseIndY p) s.cpu.y
  | .cmpAbsY a => 4 + pageCrossCycle a s.cpu.y
  | .cmpAbsX a => 4 + pageCrossCycle a s.cpu.x
  | .beq disp => branchCycles s.cpu.z disp s
  | .sbcIndY p => 5 + pageCrossCycle (s.baseIndY p) s.cpu.y
  | .sbcAbsY a => 4 + pageCrossCycle a s.cpu.y
  | .sbcAbsX a => 4 + pageCrossCycle a s.cpu.x

/-- Cycles of an interrupt entry and of the reset entry (R414). -/
def entryCycles : Nat := 7

/-- Cycles of one step of the DMA engine: two a byte, and before the first byte one, or two where the $4014 write
fell on an odd cycle: 513 or 514 in all (R318, R415; log 26). -/
def State.dmaCycles (s : State) : Nat :=
  if s.dma.index = 0 then (if s.cycles % 2 = 0 then 4 else 3) else 2

end Sys2Proof.Machine
end

