-- ==== Sys2Proof/Machine/Schedule.lean ====
section
/-! DEFINITION. Who moves at a boundary and what follows: the host's inputs (R389), the priority of events (R221,
R230), the instruction fetch (R84, R53), and the passing of time for the PPU (R9, R417). -/

namespace Sys2Proof.Machine

/-- What the outside does where the host's script has ended: nothing pressed anew, no APU interrupt, one PPU dot
where `timed` is off (log 13, log 14). -/
def State.quietInput (s : State) : HostInput :=
  { action := .none, buttons1 := s.pads.buttons1, buttons2 := s.pads.buttons2, frameIrq := false, dmcIrq := false,
    deferInterrupts := false, dots := 1 }

/-- What the outside does at this boundary. -/
def State.nextInput (s : State) : HostInput :=
  match s.inputs with
  | [] => s.quietInput
  | inp :: _ => inp

/-- The APU with an interrupt request of the host's script: the frame IRQ asks only while it is not inhibited, the
DMC IRQ only once it was enabled (R229; log 23). -/
def Apu.request (p : Apu) (frame dmc : Bool) : Apu :=
  { p with
    frameIrq := p.frameIrq || (frame && !p.frameIrqInhibit)
    dmcIrq := p.dmcIrq || (dmc && p.dmcIrqEnabled) }

/-- The state with this boundary's input taken in. -/
def State.takeInput (s : State) : State :=
  { s with
    inputs := s.inputs.tail
    pads := { s.pads with buttons1 := s.nextInput.buttons1, buttons2 := s.nextInput.buttons2 }
    apu := s.apu.request s.nextInput.frameIrq s.nextInput.dmcIrq }

/-- Who moves at a boundary (R221). -/
inductive Move where
  /-- The host presses reset. -/
  | reset
  /-- The host cycles power. -/
  | power
  /-- The DMA engine copies a byte; the CPU does not step. -/
  | dma
  /-- The CPU takes NMI. -/
  | nmi
  /-- The CPU takes IRQ. -/
  | irq
  /-- The CPU executes one instruction. -/
  | instruction
deriving DecidableEq, Repr

/-- Whether interrupts are left for a later boundary; never where `timed` holds (R221, D18; log 15). -/
def State.defers (s : State) (inp : HostInput) : Bool := !s.timed && inp.deferInterrupts

/-- One boundary: reset, then the DMA engine, then NMI, then IRQ with I clear, then an instruction (R221, R230). -/
def State.nextMove (s : State) (inp : HostInput) : Move :=
  match inp.action with
  | .resetButton => .reset
  | .powerCycle => .power
  | .none =>
    if s.dma.active then .dma
    else if s.cpu.nmiPending && !s.defers inp then .nmi
    else if !s.cpu.i && s.irqLine && !s.defers inp then .irq
    else .instruction

/-- The addresses no instruction is fetched from (R53). -/
def fetchRefused (pc : Addr) : Bool := decide (0x2000 ≤ pc.toNat) && decide (pc.toNat ≤ 0x5FFF)

/-- Reads of consecutive bytes in increasing address order (R84). -/
def readBytes : Nat → Addr → State → Except Refusal (List Byte × State)
  | 0, _, s => .ok ([], s)
  | k + 1, a, s =>
    match memRead a s with
    | .error e => .error e
    | .ok (b, s1) =>
      match readBytes k (a + 1) s1 with
      | .error e => .error e
      | .ok (bs, s2) => .ok (b :: bs, s2)

/-- The fetch of R84: the opcode at PC (refused in $2000-$5FFF, R53; refused where undefined, R90), its operand
bytes, and PC at the next instruction. -/
def fetch (s : State) : Except Refusal (Instr × State) :=
  if fetchRefused s.cpu.pc then .error (.fetchFromDevice s.cpu.pc)
  else
    match memRead s.cpu.pc s with
    | .error e => .error e
    | .ok (op, s1) =>
      match opcodeLength op with
      | none => .error (.undefinedOpcode op)
      | some len =>
        match readBytes (len - 1) (s.cpu.pc + 1) s1 with
        | .error e => .error e
        | .ok (operands, s2) =>
          match decode (op :: operands) with
          | .ok i _ => .ok (i, s2.setPc (s.cpu.pc + BitVec.ofNat 16 len))
          | .undefinedOpcode _ => .error (.undefinedOpcode op)
          | .truncated => .error (.undefinedOpcode op)

/-- Time passes after a CPU step: with `timed` the counter advances and the PPU runs three dots a cycle, without it
the PPU runs the dots the host's script names (R9, R417). -/
def State.elapse (s : State) (inp : HostInput) (n : Nat) : State :=
  if s.timed then State.ppuRun (Config.dotsPerCycle * n) { s with cycles := s.cycles + n }
  else State.ppuRun inp.dots s

/-- Time passes after what an instruction answered. -/
def afterExec (inp : HostInput) (n : Nat) (r : Result) : Result :=
  match r with
  | .next s => .next (s.elapse inp n)
  | .fault f => .fault f
  | .refused e => .refused e

/-- The instruction of this boundary: fetch, effect, time (R84). -/
def State.instructionStep (s : State) (inp : HostInput) : Result :=
  match fetch s with
  | .error e => .refused e
  | .ok (i, s1) => afterExec inp (cyclesOf i s1) (exec i s1)

/-- The DMA engine's byte of this boundary, and its time (R318, R415). -/
def State.dmaMove (s : State) (inp : HostInput) : Result :=
  match s.dmaStep with
  | .error e => .refused e
  | .ok s1 => .next (s1.elapse inp s.dmaCycles)

/-- What the agent whose move it is does (R221 to R226). -/
def State.move (s : State) (inp : HostInput) : Result :=
  match s.nextMove inp with
  | .reset => .next (s.takeReset.elapse inp entryCycles)
  | .power => .next s.powerCycle
  | .dma => s.dmaMove inp
  | .nmi => .next (s.takeNmi.elapse inp entryCycles)
  | .irq => .next (s.takeIrq.elapse inp entryCycles)
  | .instruction => s.instructionStep inp

/-- Where code can be placed for a fetch that ends in plain memory: not at an address the fetch is refused on, nor
where an operand byte would be a device's. -/
def placeablePc (pc : Addr) : Addr :=
  if 0x1FFE ≤ pc.toNat ∧ pc.toNat < 0x6000 then 0 else pc

/-- The state with one byte placed where a fetch at that address reads it: RAM, WRAM or the image. -/
def State.placeByte (s : State) (a : Addr) (b : Byte) : State :=
  if a.toNat < 0x2000 then s.setRam (s.ram.write (ramIndex a) b)
  else if a.toNat < 0x6000 then s
  else if a.toNat < 0x8000 then s.setWram (s.wram.write (a.toNat - 0x6000) b)
  else { s with prg := s.prg.write (s.mmc3.prgOffset a) b }

/-- The state with consecutive bytes placed from an address on. -/
def State.placeBytes : List Byte → Addr → State → State
  | [], _, s => s
  | b :: rest, a, s => State.placeBytes rest (a + 1) (s.placeByte a b)

/-- The state in which nothing keeps the next step from being an instruction at a PC where code can be placed: no
input, no DMA, no NMI, no IRQ that I does not mask, WRAM readable where PC is in it. At reset it changes nothing. -/
def State.readyToFetch (s : State) : State :=
  { s with
    inputs := []
    dma := { s.dma with active := false }
    cpu := { s.cpu with pc := placeablePc s.cpu.pc, nmiPending := false, i := s.cpu.i || s.irqLine }
    mmc3 := { s.mmc3 with
      prgRamProtect := if 0x6000 ≤ s.cpu.pc.toNat ∧ s.cpu.pc.toNat < 0x8000 then s.mmc3.prgRamProtect ||| 0x80
                       else s.mmc3.prgRamProtect } }

end Sys2Proof.Machine
end

