-- ==== Sys2Proof/Machine/Step.lean ====
section
/-! DEFINITION. One step of the machine (30_encoding.md R84, 60_exceptions.md R221), and the placing of an
instruction where the next step fetches it. -/

namespace Sys2Proof.Machine

/-- One step: the boundary's input is taken in, then the agent whose move it is moves (R221). -/
def step (s : State) : Host.Outcome State Fault Refusal := s.takeInput.move s.nextInput

/-- The state with the instruction whose bits are `w` stored where `step` fetches its next instruction: three bytes
at PC, with nothing pending before it (log 1). -/
def State.withFetchWord (s : State) (nbits w : Nat) : State :=
  State.placeBytes (bytesOfTableWord nbits w) s.readyToFetch.cpu.pc s.readyToFetch

end Sys2Proof.Machine
end

