-- ==== Sys2Proof/Machine/Image.lean ====
section
/-! DEFINITION. The ROM image as an iNES file and the two address conversions (64_ines_image.md): which bytes of a file
are PRG and CHR ROM, where a file offset is seen by the CPU, and which file byte a CPU address shows. -/

namespace Sys2Proof.Machine

/-- The length of the iNES header (R371). -/
def inesHeaderSize : Nat := 0x10

/-- Where CHR ROM starts in the file (R371). -/
def inesChrStart : Nat := inesHeaderSize + Config.prgSize

/-- The length of the whole file, 0x60010 bytes (R371, R379). -/
def inesFileSize : Nat := inesHeaderSize + Config.prgSize + Config.chrSize

/-- The sixteen header bytes of this cartridge: "NES" and $1A, 16 PRG units of 16KB, 16 CHR units of 8KB, mapper 4,
battery-backed RAM (R372). The mirroring bit, which the MMC3 ignores, is 0. No rule of the machine reads them. -/
def inesHeader : List Byte :=
  [0x4E, 0x45, 0x53, 0x1A, 0x10, 0x10, 0x42, 0x00, 0x00, 0x00, 0x00, 0x00, 0x00, 0x00, 0x00, 0x00]

/-- The mapper number a header names: low nibble in bits 7-4 of byte 6, high nibble in byte 7 (R372). Which bits of
byte 7 hold it R372 does not say: that they are bits 7-4, as in byte 6, is PRESUMED from the iNES format (log 40). -/
def inesMapper (header : List Byte) : Nat := (header.getD 6 0).toNat / 16 + (header.getD 7 0).toNat / 16 * 16

/-- The header's battery-backed RAM bit (R372). -/
def inesBattery (header : List Byte) : Bool := (header.getD 6 0).getLsbD 1

/-- PRG ROM of a file: `PRG[i] = file[0x10 + i]` (R371). -/
def inesPrg (file : List Byte) : Memory := Memory.ofBytes 0 ((file.drop inesHeaderSize).take Config.prgSize)

/-- CHR ROM of a file: `CHR[j] = file[0x40010 + j]` (R371). -/
def inesChr (file : List Byte) : Memory := Memory.ofBytes 0 ((file.drop inesChrStart).take Config.chrSize)

/-- The machine right after power-on with the image of a file (R370, R386, R389). -/
def State.powerOnFile (file : List Byte) (wram : Memory) : State := State.powerOn (inesPrg file) (inesChr file) wram

/-- `prg_offset = file_offset - 0x10`; none where the file offset is not inside PRG ROM, 0x10 to 0x4000F (R375). -/
def prgOffsetOfFile (fileOffset : Nat) : Option Nat :=
  if inesHeaderSize ≤ fileOffset ∧ fileOffset < inesChrStart then some (fileOffset - inesHeaderSize) else none

/-- `bank = prg_offset / 0x4000`, the 16KB bank number, 0 to 15 (R375). -/
def prgBank16 (prgOffset : Nat) : Nat := prgOffset / 0x4000

/-- `offset_in_bank = prg_offset % 0x4000`, in the 16KB bank (R375). -/
def offsetInBank16 (prgOffset : Nat) : Nat := prgOffset % 0x4000

/-- `bank8 = prg_offset / 0x2000`, the 8KB bank number, 0 to 31 (R375). -/
def prgBank8 (prgOffset : Nat) : Nat := prgOffset / 0x2000

/-- `off8 = prg_offset % 0x2000`, in the 8KB bank (R375). -/
def offsetInBank8 (prgOffset : Nat) : Nat := prgOffset % 0x2000

/-- The source's formula for the last 16KB bank, `cpu_address = 0xC000 + offset_in_bank`; none for a file offset that is
not in bank 15 (R375). It holds for the upper 8KB always and for the lower 8KB in PRG mode 0 only (90_conflicts.md C3). -/
def bank15CpuAddress (fileOffset : Nat) : Option Addr :=
  match prgOffsetOfFile fileOffset with
  | none => none
  | some prgOffset =>
    if prgBank16 prgOffset = 15 then some (BitVec.ofNat 16 (0xC000 + offsetInBank16 prgOffset)) else none

/-- Whether an 8KB bank is seen in an 8KB window, 0 for $8000 to 3 for $E000, by the table of R375. -/
def Mmc3.shows (m : Mmc3) (window bank : Nat) : Bool :=
  match window with
  | 0 => if m.bankSelect.getLsbD 7 then decide (bank = 30) else decide (bank = (m.r6 &&& 0x1F).toNat)
  | 1 => decide (bank = (m.r7 &&& 0x1F).toNat)
  | 2 => if m.bankSelect.getLsbD 7 then decide (bank = (m.r6 &&& 0x1F).toNat) else decide (bank = 30)
  | _ => decide (bank = 31)

/-- Every CPU address at which a file offset is visible (R375): none for an offset outside PRG ROM, and none until
software selects its bank. -/
def Mmc3.cpuAddresses (m : Mmc3) (fileOffset : Nat) : List Addr :=
  match prgOffsetOfFile fileOffset with
  | none => []
  | some prgOffset =>
    ([0, 1, 2, 3].filter (fun window => m.shows window (prgBank8 prgOffset))).map
      (fun window => BitVec.ofNat 16 (0x8000 + window * 0x2000 + offsetInBank8 prgOffset))

/-- The file offset of the byte a CPU address shows: `0x10 + prg_offset` in $8000-$FFFF (R377), none below, where no byte
of the file is seen (R378). -/
def Mmc3.fileOffset (m : Mmc3) (a : Addr) : Option Nat :=
  if 0x8000 ≤ a.toNat then some (inesHeaderSize + m.prgOffset a) else none

/-- The file offset of a CPU address in the fixed bank $E000-$FFFF, with the constant 0x3E010 that 90_conflicts.md C1
puts in place of the printed one (R377); none for another address. -/
def fixedFileOffset (a : Addr) : Option Nat := if 0xE000 ≤ a.toNat then some (a.toNat - 0xE000 + 0x3E010) else none

/-- The file offset of a CPU address in $C000-$FFFF while the MMC3 is in PRG mode 0 (R377); none otherwise. -/
def Mmc3.lastBankFileOffset (m : Mmc3) (a : Addr) : Option Nat :=
  if 0xC000 ≤ a.toNat ∧ m.bankSelect.getLsbD 7 = false then some (a.toNat - 0xC000 + 0x3C010) else none

/-- `chr_offset = file_offset - 0x40010`; none where the file offset is not inside CHR ROM, 0x40010 to 0x6000F (R371,
R376). -/
def chrOffsetOfFile (fileOffset : Nat) : Option Nat :=
  if inesChrStart ≤ fileOffset ∧ fileOffset < inesFileSize then some (fileOffset - inesChrStart) else none

/-- `chr_bank = chr_offset / 0x2000`, the 8KB bank number of the file view (R376). -/
def chrBank8 (chrOffset : Nat) : Nat := chrOffset / 0x2000

/-- `unit1k = chr_offset / 0x400`, the 1KB unit by which the MMC3 selects CHR ROM (R376). -/
def chrUnit1k (chrOffset : Nat) : Nat := chrOffset / 0x400

/-- `chr_offset % 0x400`, the place in the 1KB unit (R376). -/
def offsetInUnit1k (chrOffset : Nat) : Nat := chrOffset % 0x400

/-- Where tile `t`, 0 to 8191, of the whole CHR ROM starts in the file (R376). -/
def tileFileOffset (t : Nat) : Nat := inesChrStart + 16 * t

end Sys2Proof.Machine
end

