-- ==== Sys2Proof/Machine/PpuFormats.lean ====
section
/-! DEFINITION. The data formats of the PPU's memories (61_ppu.md R280 to R284): how a claim reads tiles, nametables,
attributes and sprites out of the state. The picture itself is out of scope (00_scope.md R4). -/

namespace Sys2Proof.Machine

/-- The base of the background pattern table, PPUCTRL bit 4 (R24). -/
def Ppu.backgroundTable (p : Ppu) : PpuAddr := if p.ctrl.getLsbD 4 then 0x1000 else 0x0000

/-- The base of the 8x8 sprites' pattern table, PPUCTRL bit 3 (R24). -/
def Ppu.spriteTable (p : Ppu) : PpuAddr := if p.ctrl.getLsbD 3 then 0x1000 else 0x0000

/-- Sprites are 8x16, PPUCTRL bit 5 (R24, R283). -/
def Ppu.tallSprites (p : Ppu) : Bool := p.ctrl.getLsbD 5

/-- The address of the base nametable, PPUCTRL bits 1-0 (R24). -/
def Ppu.baseNametable (p : Ppu) : PpuAddr := 0x2000 + (p.ctrl &&& 0x03).setWidth 14 <<< 10

/-- Tile `n` of a pattern table starts at `B + 16*n` (R280). -/
def tileBase (table : PpuAddr) (n : Byte) : PpuAddr := table + n.setWidth 14 <<< 4

/-- A pixel's value: bit plane 1 is the high bit, plane 0 the low; bit 7 of a row byte is the leftmost pixel (R280). -/
def pixelOf (plane0 plane1 : Byte) (column : Nat) : BitVec 2 :=
  BitVec.ofBool (plane1.getLsbD (7 - column)) ++ BitVec.ofBool (plane0.getLsbD (7 - column))

/-- The pixel of a tile at a row and a column, both 0 to 7 (R280); the value 0 is transparent. -/
def State.tilePixel (s : State) (table : PpuAddr) (n : Byte) (row column : Nat) : BitVec 2 :=
  pixelOf (s.ppuRead (tileBase table n + BitVec.ofNat 14 row)) (s.ppuRead (tileBase table n + BitVec.ofNat 14 (8 + row)))
    column

/-- The byte of a nametable that holds the tile index of a column 0-31 and a row 0-29: `32*r + c` (R281). -/
def tileIndexOffset (column row : Nat) : Nat := 32 * row + column

/-- The tile index at a place of the nametable at a base address (R281). -/
def State.tileIndexAt (s : State) (nametable : PpuAddr) (column row : Nat) : Byte :=
  s.ppuRead (nametable + BitVec.ofNat 14 (tileIndexOffset column row))

/-- The attribute byte of a tile: `960 + 8*(r >> 2) + (c >> 2)` (R282). -/
def attributeOffset (column row : Nat) : Nat := 960 + 8 * (row / 4) + column / 4

/-- The shift that selects a tile's field of its attribute byte: `((r & 2) << 1) | (c & 2)` (R282). -/
def attributeShift (column row : Nat) : Nat := row % 4 / 2 * 4 + column % 4 / 2 * 2

/-- The palette field of a tile in an attribute byte (R282). -/
def attributeField (byte : Byte) (column row : Nat) : BitVec 2 := (byte >>> attributeShift column row).setWidth 2

/-- The background palette, 0 to 3, of a tile of the nametable at a base address (R282). -/
def State.tilePalette (s : State) (nametable : PpuAddr) (column row : Nat) : BitVec 2 :=
  attributeField (s.ppuRead (nametable + BitVec.ofNat 14 (attributeOffset column row))) column row

/-- One sprite, the four bytes of OAM as their fields (R283). -/
structure Sprite where
  /-- Byte 0: Y position. -/
  y : Byte
  /-- Byte 1: tile index. -/
  tile : Byte
  /-- Byte 2 bit 7. -/
  flipVertical : Bool
  /-- Byte 2 bit 6. -/
  flipHorizontal : Bool
  /-- Byte 2 bit 5: behind the background. -/
  behind : Bool
  /-- Byte 2 bits 1-0: palette `4 + p`. -/
  palette : BitVec 2
  /-- Byte 3: X position. -/
  x : Byte
deriving DecidableEq, Repr

/-- Sprite `n`, 0 to 63: OAM bytes `4n` to `4n+3` (R283). -/
def Ppu.sprite (p : Ppu) (n : Nat) : Sprite :=
  { y := p.oam.read (4 * n)
    tile := p.oam.read (4 * n + 1)
    flipVertical := (p.oam.read (4 * n + 2)).getLsbD 7
    flipHorizontal := (p.oam.read (4 * n + 2)).getLsbD 6
    behind := (p.oam.read (4 * n + 2)).getLsbD 5
    palette := (p.oam.read (4 * n + 2)).setWidth 2
    x := p.oam.read (4 * n + 3) }

/-- How many sprites OAM holds (R284). -/
def spriteCount : Nat := 64

/-- How many sprites a scanline shows; the rest are dropped (R284). -/
def spritesPerScanline : Nat := 8

/-- The first palette entry of a sprite palette: `16 + 4p` (R283). -/
def Sprite.paletteBase (s : Sprite) : Nat := 16 + 4 * s.palette.toNat

end Sys2Proof.Machine
end

