-- ==== Sys2Proof/Safety.lean ====
section
/-! DEFINITION. The terms in which claims are stated: where an access is admitted and what it gives, which storage cell
an address stands for, the invariant of every state a run reaches, and the end of a run (70_reset_and_hazards.md R390). -/

namespace Sys2Proof.Machine

/-- The next state of an answer, if it is one. -/
def outcomeState : Host.Outcome State Fault Refusal → Option State
  | .next s => some s
  | .fault _ => none
  | .refused _ => none

/-- The refusal of an answer, if it is one. -/
def outcomeRefusal : Host.Outcome State Fault Refusal → Option Refusal
  | .next _ => none
  | .fault _ => none
  | .refused e => some e

/-- The state after some steps of the machine, if none of them stops. -/
def stepsFrom : Nat → State → Option State
  | 0, s => some s
  | k + 1, s => (outcomeState (step s)).bind (stepsFrom k)

/-- The state is at an instruction boundary. DESIGN CHOICE (log 41): a state in which the OAM DMA engine still copies is
none, as the instruction that started it has the CPU stalled; the spec does not say. -/
def State.atInstructionBoundary (s : State) : Bool := !s.dma.active

/-- PC equals the stated address at an instruction boundary (R8, R390). -/
def State.atEnd (address : Addr) (s : State) : Bool := s.atInstructionBoundary && decide (s.cpu.pc = address)

/-- `END_OF_RUN` (R8, R390): a run from `s` ends after `k` steps, in `t`: there PC equals the stated address at an
instruction boundary, and for the first time. The state the run starts in counts (DESIGN CHOICE, log 41). -/
def endOfRun (address : Addr) (s : State) (k : Nat) (t : State) : Prop :=
  stepsFrom k s = some t ∧ t.atEnd address = true ∧ ∀ j u, j < k → stepsFrom j s = some u → u.atEnd address = false

/-- The run from a state to the end its stated address names, if it ends within `fuel` steps (R390): it stops at the first
visit. -/
def runToEnd (address : Addr) : Nat → State → Option State
  | 0, s => if s.atEnd address then some s else none
  | fuel + 1, s => if s.atEnd address then some s else (outcomeState (step s)).bind (runToEnd address fuel)

/-- The state after some bytes of an OAM DMA transfer, if none of them stops. -/
def dmaStepsFrom : Nat → State → Option State
  | 0, s => some s
  | k + 1, s =>
    match s.dmaStep with
    | .ok t => dmaStepsFrom k t
    | .error _ => none

/-- The addresses of plain memory: RAM, WRAM while it is enabled, PRG ROM (R41, R56). -/
def State.plain (s : State) (a : Addr) : Bool :=
  decide (a.toNat < 0x2000)
  || (decide (0x6000 ≤ a.toNat) && decide (a.toNat < 0x8000) && s.mmc3.wramEnabled)
  || decide (0x8000 ≤ a.toNat)

/-- The byte an address of plain memory holds (R43, R46, R47). -/
def State.plainByte (s : State) (a : Addr) : Byte :=
  if a.toNat < 0x2000 then s.ram.read (a.toNat % 0x800)
  else if a.toNat < 0x8000 then s.wram.read (a.toNat - 0x6000)
  else s.prg.read (s.mmc3.prgOffset a)

/-- The reads the spec admits: all but $2004 and $2007 outside `vram_safe` (R268, R272, R294). -/
def State.readAdmitted (s : State) (a : Addr) : Bool :=
  !(decide (0x2000 ≤ a.toNat) && decide (a.toNat < 0x4000) && (decide (a.toNat % 8 = 4) || decide (a.toNat % 8 = 7))
    && !s.ppu.vramSafe)

/-- The writes the spec admits: not a $2000 write with bit 6 set (R263, U6), not $2004 or $2007 outside `vram_safe`
(R294), not $4014 with a device page or outside `vram_safe` (R318, R401), not $4015 with bit 4 set (R315). -/
def State.writeAdmitted (s : State) (a : Addr) (v : Byte) : Bool :=
  if 0x2000 ≤ a.toNat ∧ a.toNat < 0x4000 then
    if a.toNat % 8 = 0 then !v.getLsbD 6
    else if a.toNat % 8 = 4 ∨ a.toNat % 8 = 7 then s.ppu.vramSafe
    else true
  else if a = 0x4014 then !dmaPageRefused v && s.ppu.vramSafe
  else if a = 0x4015 then !v.getLsbD 4
  else true

/-- The byte a read of an address gives; 0 where the read is refused. -/
def State.readValue (s : State) (a : Addr) : Byte :=
  match memRead a s with
  | .ok (b, _) => b
  | .error _ => 0

/-- The state after a read of an address; the same where the read is refused. -/
def State.afterRead (s : State) (a : Addr) : State :=
  match memRead a s with
  | .ok (_, t) => t
  | .error _ => s

/-- The state after a write to an address; the same where the write is refused. -/
def State.afterWrite (s : State) (a : Addr) (v : Byte) : State :=
  match memWrite a v s with
  | .ok t => t
  | .error _ => s

/-- What a $2006 or $2007 access does to the MMC3 (R351): some clocks of its counter, none included, where it takes `v`
bit 12 from 0 to 1; nothing otherwise. Which number is free (log 11). -/
def A12Effect (s t : State) : Prop :=
  if t.ppu.v.getLsbD 12 = true ∧ s.ppu.v.getLsbD 12 = false then ∃ k, t.mmc3 = Mmc3.clockTimes k s.mmc3
  else t.mmc3 = s.mmc3

/-- The storages a byte can stand in. -/
inductive Storage where
  /-- Internal RAM (R19). -/
  | ram
  /-- Cartridge WRAM (R20). -/
  | wram
  /-- PRG ROM (R21). -/
  | prg
  /-- CHR ROM (R21). -/
  | chr
  /-- Nametable RAM (R22). -/
  | nametables
  /-- Palette RAM (R22). -/
  | palette
  /-- OAM (R22). -/
  | oam
deriving DecidableEq, Repr

/-- The byte of a storage at an index. -/
def State.byteAt (s : State) (storage : Storage) (k : Nat) : Byte :=
  match storage with
  | .ram => s.ram.read k
  | .wram => s.wram.read k
  | .prg => s.prg.read k
  | .chr => s.chr.read k
  | .nametables => s.ppu.nametables.read k
  | .palette => s.ppu.palette.read k
  | .oam => s.ppu.oam.read k

/-- The storage cell a CPU write to an address stores to, if it stores to one (R42, R46, R268, R271, R276). -/
def State.storedCell (s : State) (a : Addr) : Option (Storage × Nat) :=
  if a.toNat < 0x2000 then some (.ram, ramIndex a)
  else if a.toNat < 0x4000 then
    if a.toNat % 8 = 4 then some (.oam, s.ppu.oamAddr.toNat)
    else if a.toNat % 8 = 7 then
      if s.ppu.vramAddr.toNat < 0x2000 then none
      else if s.ppu.vramAddr.toNat < 0x3F00 then
        some (.nametables, nametableIndex s.mmc3.mirroring s.ppu.vramAddr)
      else some (.palette, paletteIndex s.ppu.vramAddr)
    else none
  else if 0x6000 ≤ a.toNat ∧ a.toNat < 0x8000 then
    if s.mmc3.wramWritable then some (.wram, a.toNat - 0x6000) else none
  else none

/-- Every storage is in canonical form and inside its size (R19 to R22, R370). -/
def State.storagesWf (s : State) : Bool :=
  s.ram.wf Config.ramSize && s.wram.wf Config.wramSize && s.prg.wf Config.prgSize && s.chr.wf Config.chrSize
  && s.ppu.nametables.wf Config.nametableSize && s.ppu.palette.wf Config.paletteSize && s.ppu.oam.wf Config.oamSize

/-- The cells of palette RAM hold six bits, and the four that are other names of $00, $04, $08 and $0C hold nothing
(R278). -/
def paletteOk (m : Memory) : Bool :=
  m.all (fun cell => decide (cell.2.toNat < 64) && !(decide (16 ≤ cell.1) && decide (cell.1 % 4 = 0)))

/-- The PPU's place is in the frame, and `vblank` is set only from (241, 1) to (261, 0) (R290, R291). -/
def Ppu.frameOk (p : Ppu) : Bool :=
  decide (p.scanline < Config.scanlinesPerFrame) && decide (p.dot < Config.dotsPerScanline)
  && (!p.vblank || decide (241 * 341 + 1 ≤ p.scanline * 341 + p.dot ∧ p.scanline * 341 + p.dot ≤ 261 * 341))

/-- The invariant of every state a run reaches: canonical storages, palette bytes of six bits, a place in the frame,
no DMA over device registers (R318), and an APU request only where R229 lets it be. -/
def State.inv (s : State) : Bool :=
  s.storagesWf && paletteOk s.ppu.palette && s.ppu.frameOk && decide (s.ppu.vblanksSeen ≤ 2)
  && (!s.dma.active || !dmaPageRefused s.dma.page)
  && (!s.apu.frameIrq || !s.apu.frameIrqInhibit) && (!s.apu.dmcIrq || s.apu.dmcIrqEnabled)

/-- `P_byte(b)` as the concatenation R14 writes: `N ++ V ++ 1 ++ b ++ D ++ I ++ Z ++ C`. -/
def statusImage (r : Cpu) (b : Bool) : Byte :=
  BitVec.ofBool r.n ++ BitVec.ofBool r.v ++ 1#1 ++ BitVec.ofBool b ++ BitVec.ofBool r.d ++ BitVec.ofBool r.i
    ++ BitVec.ofBool r.z ++ BitVec.ofBool r.c

/-- An instruction's bytes and its cycles on a state (the encoding table of its rule). -/
def Costs (i : Instr) (s : State) (bytes : List Byte) (cycles : Nat) : Prop :=
  encode i = bytes ∧ cyclesOf i s = cycles

/-- What a read instruction answers at an effective address (R100): its effect on the byte read and the state after the
read, or the refusal of R294. -/
def ReadsAt (answer : Host.Outcome State Fault Refusal) (ea : Addr) (s : State) (effect : State → Byte → State) : Prop :=
  if s.readAdmitted ea then answer = .next (effect (s.afterRead ea) (s.readValue ea))
  else answer = .refused (if ea.toNat % 8 = 4 then .oamUnsafe else .vramUnsafe)

/-- What a read instruction of an indexed mode answers: the refusal of R58(iii), or the read at `base + index`. -/
def ReadsIndexed (answer : Host.Outcome State Fault Refusal) (base : Addr) (index : Byte) (s : State)
    (effect : State → Byte → State) : Prop :=
  if 256 ≤ (lo base).toNat + index.toNat ∧ readSensitive (wordOf (lo base + index) (hi base)) = true then
    answer = .refused (.indexedReadTouchesDevice (wordOf (lo base + index) (hi base)))
  else ReadsAt answer (base + index.setWidth 16) s effect

/-- Why a write is refused, where it is (R263, R294, R315, R318, R401). -/
def writeRefusal (a : Addr) (v : Byte) : Refusal :=
  if a = 0x4014 then (if dmaPageRefused v then .dmaFromDevice v else .dmaUnsafe)
  else if a = 0x4015 then .dmcPlayback
  else if a.toNat % 8 = 0 then .masterSlaveBit
  else if a.toNat % 8 = 4 then .oamUnsafe
  else .vramUnsafe

/-- What a store instruction answers at an effective address (R100). -/
def WritesAt (answer : Host.Outcome State Fault Refusal) (ea : Addr) (v : Byte) (s : State) : Prop :=
  if s.writeAdmitted ea v then answer = .next (s.afterWrite ea v) else answer = .refused (writeRefusal ea v)

/-- What a store instruction of an indexed mode answers: the refusal of R58(ii), or the write at `base + index`. -/
def WritesIndexed (answer : Host.Outcome State Fault Refusal) (base : Addr) (index v : Byte) (s : State) : Prop :=
  if readSensitive (wordOf (lo base + index) (hi base)) = true then
    answer = .refused (.indexedStoreTouchesDevice (wordOf (lo base + index) (hi base)))
  else WritesAt answer (base + index.setWidth 16) v s

/-- What a read-modify-write instruction answers at an effective address (R100): the refusal of R58(i), or one read, the
flags, and one write of the result. -/
def ModifiesAt (answer : Host.Outcome State Fault Refusal) (ea : Addr) (s : State) (result : Cpu → Byte → Byte)
    (flags : Cpu → Byte → Cpu) : Prop :=
  if (0x2000 ≤ ea.toNat ∧ ea.toNat ≤ 0x5FFF) ∨ 0x8000 ≤ ea.toNat then answer = .refused (.modifyOnDeviceOrRom ea)
  else answer = .next (State.afterWrite { s.afterRead ea with cpu := flags s.cpu (s.readValue ea) } ea
    (result s.cpu (s.readValue ea)))

/-- The address a store or read-modify-write instruction stores to; none for every other instruction. -/
def storeAddress (i : Instr) (s : State) : Option Addr :=
  match i with
  | .staZp p | .stxZp p | .styZp p | .incZp p | .decZp p | .aslZp p | .lsrZp p | .rolZp p | .rorZp p => some (eaZp p)
  | .staZpX p | .styZpX p | .incZpX p | .decZpX p | .aslZpX p | .lsrZpX p | .rolZpX p | .rorZpX p =>
    some (eaZpIndexed p s.cpu.x)
  | .stxZpY p => some (eaZpIndexed p s.cpu.y)
  | .staAbs a | .stxAbs a | .styAbs a | .incAbs a | .decAbs a | .aslAbs a | .lsrAbs a | .rolAbs a | .rorAbs a => some a
  | .staAbsX a | .incAbsX a | .decAbsX a | .aslAbsX a | .lsrAbsX a | .rolAbsX a | .rorAbsX a =>
    some (eaIndexed a s.cpu.x)
  | .staAbsY a => some (eaIndexed a s.cpu.y)
  | .staIndX p => some (s.eaIndX p)
  | .staIndY p => some (eaIndexed (s.baseIndY p) s.cpu.y)
  | _ => none

/-- How many bytes an instruction pushes: PHA and PHP one, JSR two, BRK three. -/
def pushCount (i : Instr) : Nat :=
  match i with
  | .pha | .php => 1
  | .jsr _ => 2
  | .brk => 3
  | _ => 0

end Sys2Proof.Machine
end

