-- ==== Sys2Proof/Certificates/Slice0/Obligations.lean ====
section
/-! DEFINITION. The statements for the provers: what an instruction and the machine do, rule by rule of the spec. -/

open Sys2Proof Sys2Proof.Machine

/-- Decoding an encoded well-formed instruction gives it back, whatever bytes follow -/
def Obligations.DecodeOfEncode : Prop :=
  ∀ (i : Instr) (rest : List Byte), i.wf = true → decode (encode i ++ rest) = .ok i rest

/-- What the decoder reads is well-formed and its encoding is the bytes read -/
def Obligations.EncodeOfDecode : Prop :=
  ∀ (bytes : List Byte),
    (∀ i rest, decode bytes = .ok i rest → i.wf = true ∧ encode i ++ rest = bytes) ∧
    (∀ op, decode bytes = .undefinedOpcode op → bytes.head? = some op ∧ opcodeLength op = none) ∧
    (decode bytes = .truncated → bytes = [] ∨
      ∃ op len, bytes.head? = some op ∧ opcodeLength op = some len ∧ bytes.length < len)

/-- The opcode byte alone decides defined or undefined, the instruction, its mode and its length -/
def Obligations.OpcodeAloneDecides : Prop :=
  (∀ (op : Byte) (rest : List Byte),
    decode (op :: rest) = .undefinedOpcode op ↔ op ∈ ([
      0x02, 0x03, 0x04, 0x07, 0x0B, 0x0C, 0x0F, 0x12, 0x13, 0x14, 0x17, 0x1A, 0x1B, 0x1C, 0x1F, 0x22, 0x23, 0x27, 0x2B, 0x2F,
      0x32, 0x33, 0x34, 0x37, 0x3A, 0x3B, 0x3C, 0x3F, 0x42, 0x43, 0x44, 0x47, 0x4B, 0x4F, 0x52, 0x53, 0x54, 0x57, 0x5A, 0x5B,
      0x5C, 0x5F, 0x62, 0x63, 0x64, 0x67, 0x6B, 0x6F, 0x72, 0x73, 0x74, 0x77, 0x7A, 0x7B, 0x7C, 0x7F, 0x80, 0x82, 0x83, 0x87,
      0x89, 0x8B, 0x8F, 0x92, 0x93, 0x97, 0x9B, 0x9C, 0x9E, 0x9F, 0xA3, 0xA7, 0xAB, 0xAF, 0xB2, 0xB3, 0xB7, 0xBB, 0xBF, 0xC2,
      0xC3, 0xC7, 0xCB, 0xCF, 0xD2, 0xD3, 0xD4, 0xD7, 0xDA, 0xDB, 0xDC, 0xDF, 0xE2, 0xE3, 0xE7, 0xEB, 0xEF, 0xF2, 0xF3, 0xF4,
      0xF7, 0xFA, 0xFB, 0xFC, 0xFF] : List Byte)) ∧
  (∀ (op : Byte) (bytes bytes' rest rest' : List Byte) (i j : Instr),
    decode (op :: bytes) = .ok i rest → decode (op :: bytes') = .ok j rest' →
      mnemonicOf i = mnemonicOf j ∧ modeOf i = modeOf j ∧ (op :: bytes).length = lengthOf i + rest.length)

/-- Words written out from the spec decode to the instructions they stand for -/
def Obligations.SpecWordsDecode : Prop :=
  decode [0x18] = .ok .clc [] ∧ decode [0x2A] = .ok .rolAcc [] ∧ decode [0xA9, 0x42] = .ok (.ldaImm 0x42) [] ∧
  decode [0xA5, 0x20] = .ok (.ldaZp 0x20) [] ∧ decode [0xB5, 0x20] = .ok (.ldaZpX 0x20) [] ∧
  decode [0xB6, 0x20] = .ok (.ldxZpY 0x20) [] ∧ decode [0xAD, 0x00, 0x40] = .ok (.ldaAbs 0x4000) [] ∧
  decode [0xBD, 0x00, 0x40] = .ok (.ldaAbsX 0x4000) [] ∧ decode [0xB9, 0x00, 0x40] = .ok (.ldaAbsY 0x4000) [] ∧
  decode [0x6C, 0x00, 0x40] = .ok (.jmpInd 0x4000) [] ∧ decode [0xA1, 0x20] = .ok (.ldaIndX 0x20) [] ∧
  decode [0xB1, 0x20] = .ok (.ldaIndY 0x20) [] ∧ decode [0xF0, 0x05] = .ok (.beq 5) [] ∧
  decode [0xD0, 0xFB] = .ok (.bne (-5)) [] ∧ decode [0x20, 0x34, 0x92] = .ok (.jsr 0x9234) [] ∧
  decode [0x00, 0xEA] = .ok .brk [0xEA] ∧ decode [0x40] = .ok .rti [] ∧ decode [0x8D, 0x00, 0x20] = .ok (.staAbs 0x2000) [] ∧
  decode [0xE9, 0x01] = .ok (.sbcImm 0x01) [] ∧ decode [0xE6, 0x10] = .ok (.incZp 0x10) [] ∧
  decode [0x2C, 0x02, 0x20] = .ok (.bitAbs 0x2002) []

/-- A step at plain code memory runs the decoded instruction with PC at the next one (R84), and then lets time pass (R417).
The model's choice, not the spec's words: the host's script taken in at the boundary (log 13), the dots it names with TIMED
off and one dot where it has ended (log 14), and its deferral of interrupts with TIMED off (log 15, DEDUCED from R231). -/
def Obligations.StepRunsDecodedInstruction : Prop :=
  ∀ (s : State) (i : Instr) (rest : List Byte),
    s.nextInput.action = .none → s.dma.active = false →
    (s.cpu.nmiPending = false ∨ (s.timed = false ∧ s.nextInput.deferInterrupts = true)) →
    (s.cpu.i = true ∨ s.takeInput.irqLine = false ∨ (s.timed = false ∧ s.nextInput.deferInterrupts = true)) →
    decode [s.plainByte s.cpu.pc, s.plainByte (s.cpu.pc + 1), s.plainByte (s.cpu.pc + 2)] = .ok i rest →
    (∀ k, k < lengthOf i → s.plain (s.cpu.pc + BitVec.ofNat 16 k) = true) →
    let t : State := { s with
      cpu := { s.cpu with pc := s.cpu.pc + BitVec.ofNat 16 (lengthOf i) }
      inputs := s.inputs.tail
      pads := { s.pads with buttons1 := s.nextInput.buttons1, buttons2 := s.nextInput.buttons2 }
      apu := s.apu.request s.nextInput.frameIrq s.nextInput.dmcIrq }
    step s = match exec i t with
      | .next u =>
        .next (if u.timed then State.ppuRun (3 * cyclesOf i t) { u with cycles := u.cycles + cyclesOf i t }
          else State.ppuRun s.nextInput.dots u)
      | .fault f => .fault f
      | .refused e => .refused e

/-- A fetch from $2000-$5FFF and a fetch of an undefined opcode are refused -/
def Obligations.FetchRefusals : Prop :=
  ∀ s : State, s.takeInput.nextMove s.nextInput = .instruction →
    (0x2000 ≤ s.cpu.pc.toNat → s.cpu.pc.toNat ≤ 0x5FFF → step s = .refused (.fetchFromDevice s.cpu.pc)) ∧
    (s.plain s.cpu.pc = true → opcodeLength (s.plainByte s.cpu.pc) = none →
      step s = .refused (.undefinedOpcode (s.plainByte s.cpu.pc)))

/-- At a boundary: reset, then the DMA engine, then NMI, then IRQ with I clear, then an instruction (R221, R230). That a
pending interrupt may be deferred with TIMED off is R221's permission, given by the model's own field (log 15). The model's
choice, not the spec's words: these events as a script in State (log 13), and a power cycle as one step after which no time
passes, where the reset button's entry takes 7 cycles (log 29, log 34). -/
def Obligations.BoundaryPriority : Prop :=
  ∀ s : State,
    let t := s.takeInput
    let inp := s.nextInput
    let deferred := s.timed = false ∧ inp.deferInterrupts = true
    (inp.action = .resetButton → step s = .next (t.takeReset.elapse inp 7)) ∧
    (inp.action = .powerCycle → step s = .next t.powerCycle) ∧
    (inp.action = .none → s.dma.active = true → step s = t.dmaMove inp) ∧
    (inp.action = .none → s.dma.active = false → s.cpu.nmiPending = true → ¬deferred →
      step s = .next (t.takeNmi.elapse inp 7)) ∧
    (inp.action = .none → s.dma.active = false → s.cpu.nmiPending = false → s.cpu.i = false → t.irqLine = true →
      ¬deferred → step s = .next (t.takeIrq.elapse inp 7)) ∧
    (inp.action = .none → s.dma.active = false →
      (deferred ∨ (s.cpu.nmiPending = false ∧ (s.cpu.i = true ∨ t.irqLine = false))) →
      step s = t.instructionStep inp)

/-- Taking NMI or IRQ: three bytes on the stack, I set, PC from the vector, nothing else -/
def Obligations.InterruptEntry : Prop :=
  ∀ s : State,
    (s.takeNmi = { s with
      cpu := { s.cpu with
        sp := s.cpu.sp - 3, i := true, nmiPending := false
        pc := wordOf (s.prg.read 0x3FFFA) (s.prg.read 0x3FFFB) }
      ram := ((s.ram.write (0x100 + s.cpu.sp.toNat) (hi s.cpu.pc)).write (0x100 + (s.cpu.sp - 1).toNat) (lo s.cpu.pc)).write
        (0x100 + (s.cpu.sp - 2).toNat) (statusImage s.cpu false) }) ∧
    (s.takeIrq = { s with
      cpu := { s.cpu with sp := s.cpu.sp - 3, i := true, pc := wordOf (s.prg.read 0x3FFFE) (s.prg.read 0x3FFFF) }
      ram := ((s.ram.write (0x100 + s.cpu.sp.toNat) (hi s.cpu.pc)).write (0x100 + (s.cpu.sp - 1).toNat) (lo s.cpu.pc)).write
        (0x100 + (s.cpu.sp - 2).toNat) (statusImage s.cpu false) }) ∧
    (s.takeNmi.ram.read (0x100 + s.cpu.sp.toNat) = hi s.cpu.pc ∧
      s.takeNmi.ram.read (0x100 + (s.cpu.sp - 1).toNat) = lo s.cpu.pc ∧
      s.takeNmi.ram.read (0x100 + (s.cpu.sp - 2).toNat) = statusImage s.cpu false) ∧
    (s.takeIrq.ram.read (0x100 + s.cpu.sp.toNat) = hi s.cpu.pc ∧
      s.takeIrq.ram.read (0x100 + (s.cpu.sp - 1).toNat) = lo s.cpu.pc ∧
      s.takeIrq.ram.read (0x100 + (s.cpu.sp - 2).toNat) = statusImage s.cpu false) ∧
    (∀ inp, s.nextMove inp = .irq → s.cpu.i = false) ∧
    (s.enter (s.cpu.pc + 1) true 0xFFFE = s.takeBrk ∧ entryCycles = 7 ∧ cyclesOf .brk s = 7)

/-- BRK pushes pc0 + 2 and the status byte with B = 1, sets I, and goes through the IRQ vector -/
def Obligations.BrkEntry : Prop :=
  ∀ s : State,
  (Costs .brk s [0x00] 7 ∧
    exec .brk s = .next { s with
      cpu := { s.cpu with sp := s.cpu.sp - 3, i := true, pc := wordOf (s.prg.read 0x3FFFE) (s.prg.read 0x3FFFF) }
      ram := ((s.ram.write (0x100 + s.cpu.sp.toNat) (hi (s.cpu.pc + 1))).write (0x100 + (s.cpu.sp - 1).toNat) (lo (s.cpu.pc + 1))).write
        (0x100 + (s.cpu.sp - 2).toNat) (statusImage s.cpu true) })

/-- RTI pulls the six flags, then PC low, then PC high, and adds nothing -/
def Obligations.RtiRestores : Prop :=
  ∀ s : State,
  (Costs .rti s [0x40] 6 ∧
    exec .rti s = .next { s with cpu := { s.cpu with
      n := (s.ram.read (0x100 + (s.cpu.sp + 1).toNat)).getLsbD 7, v := (s.ram.read (0x100 + (s.cpu.sp + 1).toNat)).getLsbD 6
      d := (s.ram.read (0x100 + (s.cpu.sp + 1).toNat)).getLsbD 3, i := (s.ram.read (0x100 + (s.cpu.sp + 1).toNat)).getLsbD 2
      z := (s.ram.read (0x100 + (s.cpu.sp + 1).toNat)).getLsbD 1, c := (s.ram.read (0x100 + (s.cpu.sp + 1).toNat)).getLsbD 0
      sp := s.cpu.sp + 3
      pc := wordOf (s.ram.read (0x100 + (s.cpu.sp + 2).toNat)) (s.ram.read (0x100 + (s.cpu.sp + 3).toNat)) } })

/-- RTI right after an entry gives back the interrupted program: PC, S and every flag -/
def Obligations.HandlerReturns : Prop :=
  ∀ s : State,
    let outside : State → Prop := fun t => ∀ k, k ≠ 0x100 + s.cpu.sp.toNat → k ≠ 0x100 + (s.cpu.sp - 1).toNat →
      k ≠ 0x100 + (s.cpu.sp - 2).toNat → t.ram.read k = s.ram.read k
    (∃ t, exec .rti s.takeNmi = .next t ∧
      t = { s with cpu := { s.cpu with nmiPending := false }, ram := t.ram } ∧ outside t) ∧
    (∃ t, exec .rti s.takeIrq = .next t ∧ t = { s with ram := t.ram } ∧ outside t) ∧
    (∃ t u, exec .brk s = .next t ∧ exec .rti t = .next u ∧
      u = { s with cpu := { s.cpu with pc := s.cpu.pc + 1 }, ram := u.ram } ∧ outside u)

/-- The reset button and power (R226, R385 to R387, R389). The model's choice, not the spec's words: that S drops by 3, and what
the APU and the warm-up count hold after the reset button (log 4); after a power cycle the values R37 leaves open: RAM empty
(log 2), the CPU's registers (log 3), the PPU (log 5), the MMC3 (log 6), the APU and the ports (log 7), the DMA engine's page
and index (log 8), and what of the host goes on over it (log 29). -/
def Obligations.ResetAndPower : Prop :=
  (∀ s : State,
    (s.takeReset.cpu = { s.cpu with
      sp := s.cpu.sp - 3, i := true, nmiPending := false, pc := wordOf (s.prg.read 0x3FFFC) (s.prg.read 0x3FFFD) }) ∧
    s.takeReset.dma.active = false ∧
    s.takeReset.ppu = { s.ppu with ctrl := 0x00, mask := 0x00, vblanksSeen := 0 } ∧
    (s.takeReset.ram, s.takeReset.wram, s.takeReset.prg, s.takeReset.chr, s.takeReset.mmc3, s.takeReset.pads) =
      (s.ram, s.wram, s.prg, s.chr, s.mmc3, s.pads) ∧
    s.takeReset.apu = { s.apu with
      writes := (0x4015, 0x00) :: s.apu.writes, frameIrqInhibit := false, dmcIrq := false } ∧
    (s.takeReset.fresh, s.takeReset.timed, s.takeReset.cycles, s.takeReset.inputs) =
      (s.fresh, s.timed, s.cycles, s.inputs) ∧
    (s.powerCycle.wram, s.powerCycle.prg, s.powerCycle.chr) = (s.wram, s.prg, s.chr) ∧
    s.powerCycle.cpu = (State.powerOn s.prg s.chr s.wram).cpu ∧ s.powerCycle.ppu = Ppu.powerOn ∧
    s.powerCycle.mmc3 = Mmc3.powerOn ∧ s.powerCycle.ram = [] ∧
    s.powerCycle.apu = Apu.powerOn ∧ s.powerCycle.dma = Dma.powerOn ∧
    s.powerCycle.pads = { Pads.powerOn with
      standard := s.pads.standard, buttons1 := s.pads.buttons1, buttons2 := s.pads.buttons2 } ∧
    (s.powerCycle.fresh, s.powerCycle.timed, s.powerCycle.cycles, s.powerCycle.inputs) =
      (s.fresh, s.timed, 0, s.inputs)) ∧
  (∀ prg chr wram : Memory,
    let s := State.powerOn prg chr wram
    s.cpu.pc = wordOf (prg.read 0x3FFFC) (prg.read 0x3FFFD) ∧ s.cpu.i = true ∧ s.cpu.nmiPending = false ∧
    s.dma.active = false ∧ s.ppu.ctrl = 0x00 ∧ s.ppu.mask = 0x00 ∧ s.wram = wram ∧ s.prg = prg ∧ s.chr = chr) ∧
  State.reset = State.powerOn [] [] []

/-- LDA, LDX and LDY in every mode: the byte read goes into the register and into N and Z -/
def Obligations.LoadInstructions : Prop :=
  ∀ s : State,
    let lda : State → Byte → State := (fun t m => { t with cpu := { t.cpu with a := m, n := m.getLsbD 7, z := decide (m = 0) } })
    let ldx : State → Byte → State := (fun t m => { t with cpu := { t.cpu with x := m, n := m.getLsbD 7, z := decide (m = 0) } })
    let ldy : State → Byte → State := (fun t m => { t with cpu := { t.cpu with y := m, n := m.getLsbD 7, z := decide (m = 0) } })
  (∀ m : Byte, Costs (.ldaImm m) s [0xA9, m] 2 ∧
    exec (.ldaImm m) s = .next (lda s m)) ∧
  (∀ p : Byte, Costs (.ldaZp p) s [0xA5, p] 3 ∧
    ReadsAt (exec (.ldaZp p) s) (p.setWidth 16) s lda) ∧
  (∀ p : Byte, Costs (.ldaZpX p) s [0xB5, p] 4 ∧
    ReadsAt (exec (.ldaZpX p) s) ((p + s.cpu.x).setWidth 16) s lda) ∧
  (∀ a : Addr, Costs (.ldaAbs a) s [0xAD, lo a, hi a] 4 ∧
    ReadsAt (exec (.ldaAbs a) s) a s lda) ∧
  (∀ a : Addr, Costs (.ldaAbsX a) s [0xBD, lo a, hi a] (4 + if 256 ≤ (lo a).toNat + s.cpu.x.toNat then 1 else 0) ∧
    ReadsIndexed (exec (.ldaAbsX a) s) a s.cpu.x s lda) ∧
  (∀ a : Addr, Costs (.ldaAbsY a) s [0xB9, lo a, hi a] (4 + if 256 ≤ (lo a).toNat + s.cpu.y.toNat then 1 else 0) ∧
    ReadsIndexed (exec (.ldaAbsY a) s) a s.cpu.y s lda) ∧
  (∀ p : Byte, Costs (.ldaIndX p) s [0xA1, p] 6 ∧
    ReadsAt (exec (.ldaIndX p) s) (wordOf (s.ram.read (p + s.cpu.x).toNat) (s.ram.read (p + s.cpu.x + 1).toNat)) s lda) ∧
  (∀ p : Byte, Costs (.ldaIndY p) s [0xB1, p] (5 + if 256 ≤ (lo (wordOf (s.ram.read p.toNat) (s.ram.read (p + 1).toNat))).toNat + s.cpu.y.toNat then 1 else 0) ∧
    ReadsIndexed (exec (.ldaIndY p) s) (wordOf (s.ram.read p.toNat) (s.ram.read (p + 1).toNat)) s.cpu.y s lda) ∧
  (∀ m : Byte, Costs (.ldxImm m) s [0xA2, m] 2 ∧
    exec (.ldxImm m) s = .next (ldx s m)) ∧
  (∀ p : Byte, Costs (.ldxZp p) s [0xA6, p] 3 ∧
    ReadsAt (exec (.ldxZp p) s) (p.setWidth 16) s ldx) ∧
  (∀ p : Byte, Costs (.ldxZpY p) s [0xB6, p] 4 ∧
    ReadsAt (exec (.ldxZpY p) s) ((p + s.cpu.y).setWidth 16) s ldx) ∧
  (∀ a : Addr, Costs (.ldxAbs a) s [0xAE, lo a, hi a] 4 ∧
    ReadsAt (exec (.ldxAbs a) s) a s ldx) ∧
  (∀ a : Addr, Costs (.ldxAbsY a) s [0xBE, lo a, hi a] (4 + if 256 ≤ (lo a).toNat + s.cpu.y.toNat then 1 else 0) ∧
    ReadsIndexed (exec (.ldxAbsY a) s) a s.cpu.y s ldx) ∧
  (∀ m : Byte, Costs (.ldyImm m) s [0xA0, m] 2 ∧
    exec (.ldyImm m) s = .next (ldy s m)) ∧
  (∀ p : Byte, Costs (.ldyZp p) s [0xA4, p] 3 ∧
    ReadsAt (exec (.ldyZp p) s) (p.setWidth 16) s ldy) ∧
  (∀ p : Byte, Costs (.ldyZpX p) s [0xB4, p] 4 ∧
    ReadsAt (exec (.ldyZpX p) s) ((p + s.cpu.x).setWidth 16) s ldy) ∧
  (∀ a : Addr, Costs (.ldyAbs a) s [0xAC, lo a, hi a] 4 ∧
    ReadsAt (exec (.ldyAbs a) s) a s ldy) ∧
  (∀ a : Addr, Costs (.ldyAbsX a) s [0xBC, lo a, hi a] (4 + if 256 ≤ (lo a).toNat + s.cpu.x.toNat then 1 else 0) ∧
    ReadsIndexed (exec (.ldyAbsX a) s) a s.cpu.x s ldy)

/-- STA, STX and STY in every mode: the register goes to the effective address, no flag changes -/
def Obligations.StoreInstructions : Prop :=
  ∀ s : State,
  (∀ p : Byte, Costs (.staZp p) s [0x85, p] 3 ∧
    WritesAt (exec (.staZp p) s) (p.setWidth 16) s.cpu.a s) ∧
  (∀ p : Byte, Costs (.staZpX p) s [0x95, p] 4 ∧
    WritesAt (exec (.staZpX p) s) ((p + s.cpu.x).setWidth 16) s.cpu.a s) ∧
  (∀ a : Addr, Costs (.staAbs a) s [0x8D, lo a, hi a] 4 ∧
    WritesAt (exec (.staAbs a) s) a s.cpu.a s) ∧
  (∀ a : Addr, Costs (.staAbsX a) s [0x9D, lo a, hi a] 5 ∧
    WritesIndexed (exec (.staAbsX a) s) a s.cpu.x s.cpu.a s) ∧
  (∀ a : Addr, Costs (.staAbsY a) s [0x99, lo a, hi a] 5 ∧
    WritesIndexed (exec (.staAbsY a) s) a s.cpu.y s.cpu.a s) ∧
  (∀ p : Byte, Costs (.staIndX p) s [0x81, p] 6 ∧
    WritesAt (exec (.staIndX p) s) (wordOf (s.ram.read (p + s.cpu.x).toNat) (s.ram.read (p + s.cpu.x + 1).toNat)) s.cpu.a s) ∧
  (∀ p : Byte, Costs (.staIndY p) s [0x91, p] 6 ∧
    WritesIndexed (exec (.staIndY p) s) (wordOf (s.ram.read p.toNat) (s.ram.read (p + 1).toNat)) s.cpu.y s.cpu.a s) ∧
  (∀ p : Byte, Costs (.stxZp p) s [0x86, p] 3 ∧
    WritesAt (exec (.stxZp p) s) (p.setWidth 16) s.cpu.x s) ∧
  (∀ p : Byte, Costs (.stxZpY p) s [0x96, p] 4 ∧
    WritesAt (exec (.stxZpY p) s) ((p + s.cpu.y).setWidth 16) s.cpu.x s) ∧
  (∀ a : Addr, Costs (.stxAbs a) s [0x8E, lo a, hi a] 4 ∧
    WritesAt (exec (.stxAbs a) s) a s.cpu.x s) ∧
  (∀ p : Byte, Costs (.styZp p) s [0x84, p] 3 ∧
    WritesAt (exec (.styZp p) s) (p.setWidth 16) s.cpu.y s) ∧
  (∀ p : Byte, Costs (.styZpX p) s [0x94, p] 4 ∧
    WritesAt (exec (.styZpX p) s) ((p + s.cpu.x).setWidth 16) s.cpu.y s) ∧
  (∀ a : Addr, Costs (.styAbs a) s [0x8C, lo a, hi a] 4 ∧
    WritesAt (exec (.styAbs a) s) a s.cpu.y s)

/-- No instruction changes a byte of any storage but the one it stores to or the stack bytes it pushes -/
def Obligations.MemoryFrame : Prop :=
  ∀ (i : Instr) (s t : State), exec i s = .next t →
    (∀ ea, storeAddress i s = some ea →
      (∀ storage k, s.storedCell ea ≠ some (storage, k) → t.byteAt storage k = s.byteAt storage k) ∧
      (t.cpu.a, t.cpu.x, t.cpu.y, t.cpu.sp, t.cpu.pc) = (s.cpu.a, s.cpu.x, s.cpu.y, s.cpu.sp, s.cpu.pc) ∧
      (t.cpu.v, t.cpu.d, t.cpu.i) = (s.cpu.v, s.cpu.d, s.cpu.i)) ∧
    (storeAddress i s = none → ∀ storage k,
      (storage = .ram → ∀ j, j < pushCount i → k ≠ 0x100 + (s.cpu.sp - BitVec.ofNat 8 j).toNat) →
      t.byteAt storage k = s.byteAt storage k) ∧
    t.prg = s.prg ∧ t.chr = s.chr

/-- Plain memory: a read gives the byte and changes nothing; RAM is mirrored four times; WRAM obeys $A001; ROM never changes -/
def Obligations.PlainMemoryBus : Prop :=
  ∀ (s : State) (a : Addr) (v : Byte),
    (s.plain a = true → memRead a s = .ok (s.plainByte a, s)) ∧
    (a.toNat < 0x2000 → memWrite a v s = .ok { s with ram := (s.afterWrite a v).ram } ∧
      ∀ b : Addr, b.toNat < 0x2000 →
        memRead b (s.afterWrite a v) =
          .ok (if b.toNat % 0x800 = a.toNat % 0x800 then v else s.plainByte b, s.afterWrite a v)) ∧
    (0x6000 ≤ a.toNat → a.toNat < 0x8000 →
      (s.mmc3.prgRamProtect.getLsbD 7 = true → memRead a s = .ok (s.wram.read (a.toNat - 0x6000), s)) ∧
      (s.mmc3.prgRamProtect.getLsbD 7 = false →
        ∃ free, memRead a s = .ok (free, { s with fresh := s.fresh + 1 })) ∧
      (s.mmc3.prgRamProtect.getLsbD 7 = true ∧ s.mmc3.prgRamProtect.getLsbD 6 = false →
        memWrite a v s = .ok { s with wram := (s.afterWrite a v).wram } ∧
        ∀ k, (s.afterWrite a v).wram.read k = if k = a.toNat - 0x6000 then v else s.wram.read k) ∧
      (s.mmc3.prgRamProtect.getLsbD 7 = false ∨ s.mmc3.prgRamProtect.getLsbD 6 = true → memWrite a v s = .ok s)) ∧
    (0x8000 ≤ a.toNat → memWrite a v s = .ok { s with mmc3 := (s.afterWrite a v).mmc3 })

/-- Reads of write-only and unmapped addresses give a free byte and change nothing; $4015 clears the frame IRQ flag -/
def Obligations.DeviceReads : Prop :=
  ∀ (s : State) (a : Addr) (v : Byte),
    ((0x2000 ≤ a.toNat ∧ a.toNat < 0x4000 ∧
        (a.toNat % 8 = 0 ∨ a.toNat % 8 = 1 ∨ a.toNat % 8 = 3 ∨ a.toNat % 8 = 5 ∨ a.toNat % 8 = 6)) ∨
      (0x4000 ≤ a.toNat ∧ a.toNat ≤ 0x4014) ∨ (0x4018 ≤ a.toNat ∧ a.toNat < 0x6000) →
      ∃ free, memRead a s = .ok (free, { s with fresh := s.fresh + 1 })) ∧
    (∃ free, memRead 0x4015 s =
      .ok (free, { s with fresh := s.fresh + 1, apu := { s.apu with frameIrq := false } })) ∧
    ((0x2000 ≤ a.toNat ∧ a.toNat < 0x4000 ∧ a.toNat % 8 = 2) ∨ (0x4018 ≤ a.toNat ∧ a.toNat < 0x6000) →
      memWrite a v s = .ok s)

/-- TAX, TAY, TXA, TYA, TSX set N and Z from the byte moved; TXS sets no flag -/
def Obligations.TransferInstructions : Prop :=
  ∀ s : State,
  (Costs .tax s [0xAA] 2 ∧
    exec .tax s = .next { s with cpu := { s.cpu with x := s.cpu.a, n := (s.cpu.a).getLsbD 7, z := decide (s.cpu.a = 0) } }) ∧
  (Costs .tay s [0xA8] 2 ∧
    exec .tay s = .next { s with cpu := { s.cpu with y := s.cpu.a, n := (s.cpu.a).getLsbD 7, z := decide (s.cpu.a = 0) } }) ∧
  (Costs .txa s [0x8A] 2 ∧
    exec .txa s = .next { s with cpu := { s.cpu with a := s.cpu.x, n := (s.cpu.x).getLsbD 7, z := decide (s.cpu.x = 0) } }) ∧
  (Costs .tya s [0x98] 2 ∧
    exec .tya s = .next { s with cpu := { s.cpu with a := s.cpu.y, n := (s.cpu.y).getLsbD 7, z := decide (s.cpu.y = 0) } }) ∧
  (Costs .tsx s [0xBA] 2 ∧
    exec .tsx s = .next { s with cpu := { s.cpu with x := s.cpu.sp, n := (s.cpu.sp).getLsbD 7, z := decide (s.cpu.sp = 0) } }) ∧
  (Costs .txs s [0x9A] 2 ∧
    exec .txs s = .next { s with cpu := { s.cpu with sp := s.cpu.x } })

/-- PHA, PLA, PHP and PLP: the byte, the stack pointer modulo 256, the flags -/
def Obligations.StackInstructions : Prop :=
  ∀ s : State,
    let top := s.ram.read (0x100 + (s.cpu.sp + 1).toNat)
  (Costs .pha s [0x48] 3 ∧
    exec .pha s = .next { s with ram := s.ram.write (0x100 + s.cpu.sp.toNat) s.cpu.a, cpu := { s.cpu with sp := s.cpu.sp - 1 } }) ∧
  (Costs .pla s [0x68] 4 ∧
    exec .pla s = .next { s with cpu := { s.cpu with a := top, sp := s.cpu.sp + 1, n := top.getLsbD 7, z := decide (top = 0) } }) ∧
  (Costs .php s [0x08] 3 ∧
    exec .php s = .next { s with
      ram := s.ram.write (0x100 + s.cpu.sp.toNat) (statusImage s.cpu true), cpu := { s.cpu with sp := s.cpu.sp - 1 } }) ∧
  (Costs .plp s [0x28] 4 ∧
    exec .plp s = .next { s with cpu := { s.cpu with
      sp := s.cpu.sp + 1, n := top.getLsbD 7, v := top.getLsbD 6, d := top.getLsbD 3, i := top.getLsbD 2, z := top.getLsbD 1, c := top.getLsbD 0 } })

/-- PHA then PLA, PHP then PLP, JSR then RTS come back to where they began, at every S -/
def Obligations.StackRoundTrips : Prop :=
  ∀ (s : State) (target : Addr),
    (∃ t u, exec .pha s = .next t ∧ exec .pla t = .next u ∧
      u = { s with cpu := { s.cpu with n := s.cpu.a.getLsbD 7, z := decide (s.cpu.a = 0) }, ram := t.ram } ∧
      ∀ k, k ≠ 0x100 + s.cpu.sp.toNat → t.ram.read k = s.ram.read k) ∧
    (∃ t u, exec .php s = .next t ∧ exec .plp t = .next u ∧ u = { s with ram := t.ram } ∧
      ∀ k, k ≠ 0x100 + s.cpu.sp.toNat → t.ram.read k = s.ram.read k) ∧
    (∃ t u, exec (.jsr target) s = .next t ∧ t.cpu.pc = target ∧ exec .rts t = .next u ∧ u = { s with ram := t.ram } ∧
      ∀ k, k ≠ 0x100 + s.cpu.sp.toNat → k ≠ 0x100 + (s.cpu.sp - 1).toNat → t.ram.read k = s.ram.read k)

/-- ADC in every mode: binary sum with carry, C the unsigned carry, V the signed overflow, N and Z of the result -/
def Obligations.AdcInstructions : Prop :=
  ∀ s : State,
    let adc : State → Byte → State := fun t m =>
      let sum := t.cpu.a.toNat + m.toNat + t.cpu.c.toNat
      let signed := t.cpu.a.toInt + m.toInt + (if t.cpu.c then 1 else 0)
      { t with cpu := { t.cpu with
          a := BitVec.ofNat 8 sum, c := decide (255 < sum), v := decide (signed < -128 ∨ 127 < signed)
          n := decide (128 ≤ sum % 256), z := decide (sum % 256 = 0) } }
  (∀ m : Byte, Costs (.adcImm m) s [0x69, m] 2 ∧
    exec (.adcImm m) s = .next (adc s m)) ∧
  (∀ p : Byte, Costs (.adcZp p) s [0x65, p] 3 ∧
    ReadsAt (exec (.adcZp p) s) (p.setWidth 16) s adc) ∧
  (∀ p : Byte, Costs (.adcZpX p) s [0x75, p] 4 ∧
    ReadsAt (exec (.adcZpX p) s) ((p + s.cpu.x).setWidth 16) s adc) ∧
  (∀ a : Addr, Costs (.adcAbs a) s [0x6D, lo a, hi a] 4 ∧
    ReadsAt (exec (.adcAbs a) s) a s adc) ∧
  (∀ a : Addr, Costs (.adcAbsX a) s [0x7D, lo a, hi a] (4 + if 256 ≤ (lo a).toNat + s.cpu.x.toNat then 1 else 0) ∧
    ReadsIndexed (exec (.adcAbsX a) s) a s.cpu.x s adc) ∧
  (∀ a : Addr, Costs (.adcAbsY a) s [0x79, lo a, hi a] (4 + if 256 ≤ (lo a).toNat + s.cpu.y.toNat then 1 else 0) ∧
    ReadsIndexed (exec (.adcAbsY a) s) a s.cpu.y s adc) ∧
  (∀ p : Byte, Costs (.adcIndX p) s [0x61, p] 6 ∧
    ReadsAt (exec (.adcIndX p) s) (wordOf (s.ram.read (p + s.cpu.x).toNat) (s.ram.read (p + s.cpu.x + 1).toNat)) s adc) ∧
  (∀ p : Byte, Costs (.adcIndY p) s [0x71, p] (5 + if 256 ≤ (lo (wordOf (s.ram.read p.toNat) (s.ram.read (p + 1).toNat))).toNat + s.cpu.y.toNat then 1 else 0) ∧
    ReadsIndexed (exec (.adcIndY p) s) (wordOf (s.ram.read p.toNat) (s.ram.read (p + 1).toNat)) s.cpu.y s adc)

/-- SBC in every mode: difference with borrow, C no borrow, V the signed overflow, N and Z of the result -/
def Obligations.SbcInstructions : Prop :=
  ∀ s : State,
    let sbc : State → Byte → State := fun t m =>
      let borrow := if t.cpu.c then 0 else 1
      let signed := t.cpu.a.toInt - m.toInt - (if t.cpu.c then 0 else 1)
      { t with cpu := { t.cpu with
          a := t.cpu.a - m - BitVec.ofNat 8 borrow, c := decide (m.toNat + borrow ≤ t.cpu.a.toNat)
          v := decide (signed < -128 ∨ 127 < signed)
          n := (t.cpu.a - m - BitVec.ofNat 8 borrow).getLsbD 7
          z := decide (t.cpu.a - m - BitVec.ofNat 8 borrow = 0) } }
  (∀ m : Byte, Costs (.sbcImm m) s [0xE9, m] 2 ∧
    exec (.sbcImm m) s = .next (sbc s m)) ∧
  (∀ p : Byte, Costs (.sbcZp p) s [0xE5, p] 3 ∧
    ReadsAt (exec (.sbcZp p) s) (p.setWidth 16) s sbc) ∧
  (∀ p : Byte, Costs (.sbcZpX p) s [0xF5, p] 4 ∧
    ReadsAt (exec (.sbcZpX p) s) ((p + s.cpu.x).setWidth 16) s sbc) ∧
  (∀ a : Addr, Costs (.sbcAbs a) s [0xED, lo a, hi a] 4 ∧
    ReadsAt (exec (.sbcAbs a) s) a s sbc) ∧
  (∀ a : Addr, Costs (.sbcAbsX a) s [0xFD, lo a, hi a] (4 + if 256 ≤ (lo a).toNat + s.cpu.x.toNat then 1 else 0) ∧
    ReadsIndexed (exec (.sbcAbsX a) s) a s.cpu.x s sbc) ∧
  (∀ a : Addr, Costs (.sbcAbsY a) s [0xF9, lo a, hi a] (4 + if 256 ≤ (lo a).toNat + s.cpu.y.toNat then 1 else 0) ∧
    ReadsIndexed (exec (.sbcAbsY a) s) a s.cpu.y s sbc) ∧
  (∀ p : Byte, Costs (.sbcIndX p) s [0xE1, p] 6 ∧
    ReadsAt (exec (.sbcIndX p) s) (wordOf (s.ram.read (p + s.cpu.x).toNat) (s.ram.read (p + s.cpu.x + 1).toNat)) s sbc) ∧
  (∀ p : Byte, Costs (.sbcIndY p) s [0xF1, p] (5 + if 256 ≤ (lo (wordOf (s.ram.read p.toNat) (s.ram.read (p + 1).toNat))).toNat + s.cpu.y.toNat then 1 else 0) ∧
    ReadsIndexed (exec (.sbcIndY p) s) (wordOf (s.ram.read p.toNat) (s.ram.read (p + 1).toNat)) s.cpu.y s sbc)

/-- CMP, CPX and CPY in every mode: C unsigned not less, Z equal, N bit 7 of the difference; the register stays -/
def Obligations.CompareInstructions : Prop :=
  ∀ s : State,
    let cmp : State → Byte → State := fun t m => { t with cpu := { t.cpu with
      c := decide (m.toNat ≤ t.cpu.a.toNat), z := decide (t.cpu.a = m), n := (t.cpu.a - m).getLsbD 7 } }
    let cpx : State → Byte → State := fun t m => { t with cpu := { t.cpu with
      c := decide (m.toNat ≤ t.cpu.x.toNat), z := decide (t.cpu.x = m), n := (t.cpu.x - m).getLsbD 7 } }
    let cpy : State → Byte → State := fun t m => { t with cpu := { t.cpu with
      c := decide (m.toNat ≤ t.cpu.y.toNat), z := decide (t.cpu.y = m), n := (t.cpu.y - m).getLsbD 7 } }
  (∀ m : Byte, Costs (.cmpImm m) s [0xC9, m] 2 ∧
    exec (.cmpImm m) s = .next (cmp s m)) ∧
  (∀ p : Byte, Costs (.cmpZp p) s [0xC5, p] 3 ∧
    ReadsAt (exec (.cmpZp p) s) (p.setWidth 16) s cmp) ∧
  (∀ p : Byte, Costs (.cmpZpX p) s [0xD5, p] 4 ∧
    ReadsAt (exec (.cmpZpX p) s) ((p + s.cpu.x).setWidth 16) s cmp) ∧
  (∀ a : Addr, Costs (.cmpAbs a) s [0xCD, lo a, hi a] 4 ∧
    ReadsAt (exec (.cmpAbs a) s) a s cmp) ∧
  (∀ a : Addr, Costs (.cmpAbsX a) s [0xDD, lo a, hi a] (4 + if 256 ≤ (lo a).toNat + s.cpu.x.toNat then 1 else 0) ∧
    ReadsIndexed (exec (.cmpAbsX a) s) a s.cpu.x s cmp) ∧
  (∀ a : Addr, Costs (.cmpAbsY a) s [0xD9, lo a, hi a] (4 + if 256 ≤ (lo a).toNat + s.cpu.y.toNat then 1 else 0) ∧
    ReadsIndexed (exec (.cmpAbsY a) s) a s.cpu.y s cmp) ∧
  (∀ p : Byte, Costs (.cmpIndX p) s [0xC1, p] 6 ∧
    ReadsAt (exec (.cmpIndX p) s) (wordOf (s.ram.read (p + s.cpu.x).toNat) (s.ram.read (p + s.cpu.x + 1).toNat)) s cmp) ∧
  (∀ p : Byte, Costs (.cmpIndY p) s [0xD1, p] (5 + if 256 ≤ (lo (wordOf (s.ram.read p.toNat) (s.ram.read (p + 1).toNat))).toNat + s.cpu.y.toNat then 1 else 0) ∧
    ReadsIndexed (exec (.cmpIndY p) s) (wordOf (s.ram.read p.toNat) (s.ram.read (p + 1).toNat)) s.cpu.y s cmp) ∧
  (∀ m : Byte, Costs (.cpxImm m) s [0xE0, m] 2 ∧
    exec (.cpxImm m) s = .next (cpx s m)) ∧
  (∀ p : Byte, Costs (.cpxZp p) s [0xE4, p] 3 ∧
    ReadsAt (exec (.cpxZp p) s) (p.setWidth 16) s cpx) ∧
  (∀ a : Addr, Costs (.cpxAbs a) s [0xEC, lo a, hi a] 4 ∧
    ReadsAt (exec (.cpxAbs a) s) a s cpx) ∧
  (∀ m : Byte, Costs (.cpyImm m) s [0xC0, m] 2 ∧
    exec (.cpyImm m) s = .next (cpy s m)) ∧
  (∀ p : Byte, Costs (.cpyZp p) s [0xC4, p] 3 ∧
    ReadsAt (exec (.cpyZp p) s) (p.setWidth 16) s cpy) ∧
  (∀ a : Addr, Costs (.cpyAbs a) s [0xCC, lo a, hi a] 4 ∧
    ReadsAt (exec (.cpyAbs a) s) a s cpy)

/-- INC, DEC, INX, DEX, INY, DEY: plus or minus one modulo 256, N and Z of the result, C and V unchanged -/
def Obligations.IncDecInstructions : Prop :=
  ∀ s : State,
    let incFlags : Cpu → Byte → Cpu := fun r m => { r with n := (m + 1).getLsbD 7, z := decide (m + 1 = 0) }
    let decFlags : Cpu → Byte → Cpu := fun r m => { r with n := (m - 1).getLsbD 7, z := decide (m - 1 = 0) }
  (∀ p : Byte, Costs (.incZp p) s [0xE6, p] 5 ∧
    ModifiesAt (exec (.incZp p) s) (p.setWidth 16) s (fun _ m => m + 1) incFlags) ∧
  (∀ p : Byte, Costs (.incZpX p) s [0xF6, p] 6 ∧
    ModifiesAt (exec (.incZpX p) s) ((p + s.cpu.x).setWidth 16) s (fun _ m => m + 1) incFlags) ∧
  (∀ a : Addr, Costs (.incAbs a) s [0xEE, lo a, hi a] 6 ∧
    ModifiesAt (exec (.incAbs a) s) a s (fun _ m => m + 1) incFlags) ∧
  (∀ a : Addr, Costs (.incAbsX a) s [0xFE, lo a, hi a] 7 ∧
    ModifiesAt (exec (.incAbsX a) s) (a + s.cpu.x.setWidth 16) s (fun _ m => m + 1) incFlags) ∧
  (∀ p : Byte, Costs (.decZp p) s [0xC6, p] 5 ∧
    ModifiesAt (exec (.decZp p) s) (p.setWidth 16) s (fun _ m => m - 1) decFlags) ∧
  (∀ p : Byte, Costs (.decZpX p) s [0xD6, p] 6 ∧
    ModifiesAt (exec (.decZpX p) s) ((p + s.cpu.x).setWidth 16) s (fun _ m => m - 1) decFlags) ∧
  (∀ a : Addr, Costs (.decAbs a) s [0xCE, lo a, hi a] 6 ∧
    ModifiesAt (exec (.decAbs a) s) a s (fun _ m => m - 1) decFlags) ∧
  (∀ a : Addr, Costs (.decAbsX a) s [0xDE, lo a, hi a] 7 ∧
    ModifiesAt (exec (.decAbsX a) s) (a + s.cpu.x.setWidth 16) s (fun _ m => m - 1) decFlags) ∧
  (Costs .inx s [0xE8] 2 ∧
    exec .inx s = .next { s with cpu := { s.cpu with x := s.cpu.x + 1, n := (s.cpu.x + 1).getLsbD 7, z := decide (s.cpu.x + 1 = 0) } }) ∧
  (Costs .dex s [0xCA] 2 ∧
    exec .dex s = .next { s with cpu := { s.cpu with x := s.cpu.x - 1, n := (s.cpu.x - 1).getLsbD 7, z := decide (s.cpu.x - 1 = 0) } }) ∧
  (Costs .iny s [0xC8] 2 ∧
    exec .iny s = .next { s with cpu := { s.cpu with y := s.cpu.y + 1, n := (s.cpu.y + 1).getLsbD 7, z := decide (s.cpu.y + 1 = 0) } }) ∧
  (Costs .dey s [0x88] 2 ∧
    exec .dey s = .next { s with cpu := { s.cpu with y := s.cpu.y - 1, n := (s.cpu.y - 1).getLsbD 7, z := decide (s.cpu.y - 1 = 0) } })

/-- AND, ORA, EOR in every mode, and BIT: the result in A with N and Z; BIT writes flags only -/
def Obligations.LogicInstructions : Prop :=
  ∀ s : State,
    let and : State → Byte → State := fun t m => { t with cpu := { t.cpu with
      a := t.cpu.a &&& m, n := (t.cpu.a &&& m).getLsbD 7, z := decide (t.cpu.a &&& m = 0) } }
    let ora : State → Byte → State := fun t m => { t with cpu := { t.cpu with
      a := t.cpu.a ||| m, n := (t.cpu.a ||| m).getLsbD 7, z := decide (t.cpu.a ||| m = 0) } }
    let eor : State → Byte → State := fun t m => { t with cpu := { t.cpu with
      a := t.cpu.a ^^^ m, n := (t.cpu.a ^^^ m).getLsbD 7, z := decide (t.cpu.a ^^^ m = 0) } }
    let bit : State → Byte → State := fun t m => { t with cpu := { t.cpu with
      z := decide (t.cpu.a &&& m = 0), n := m.getLsbD 7, v := m.getLsbD 6 } }
  (∀ m : Byte, Costs (.andImm m) s [0x29, m] 2 ∧
    exec (.andImm m) s = .next (and s m)) ∧
  (∀ p : Byte, Costs (.andZp p) s [0x25, p] 3 ∧
    ReadsAt (exec (.andZp p) s) (p.setWidth 16) s and) ∧
  (∀ p : Byte, Costs (.andZpX p) s [0x35, p] 4 ∧
    ReadsAt (exec (.andZpX p) s) ((p + s.cpu.x).setWidth 16) s and) ∧
  (∀ a : Addr, Costs (.andAbs a) s [0x2D, lo a, hi a] 4 ∧
    ReadsAt (exec (.andAbs a) s) a s and) ∧
  (∀ a : Addr, Costs (.andAbsX a) s [0x3D, lo a, hi a] (4 + if 256 ≤ (lo a).toNat + s.cpu.x.toNat then 1 else 0) ∧
    ReadsIndexed (exec (.andAbsX a) s) a s.cpu.x s and) ∧
  (∀ a : Addr, Costs (.andAbsY a) s [0x39, lo a, hi a] (4 + if 256 ≤ (lo a).toNat + s.cpu.y.toNat then 1 else 0) ∧
    ReadsIndexed (exec (.andAbsY a) s) a s.cpu.y s and) ∧
  (∀ p : Byte, Costs (.andIndX p) s [0x21, p] 6 ∧
    ReadsAt (exec (.andIndX p) s) (wordOf (s.ram.read (p + s.cpu.x).toNat) (s.ram.read (p + s.cpu.x + 1).toNat)) s and) ∧
  (∀ p : Byte, Costs (.andIndY p) s [0x31, p] (5 + if 256 ≤ (lo (wordOf (s.ram.read p.toNat) (s.ram.read (p + 1).toNat))).toNat + s.cpu.y.toNat then 1 else 0) ∧
    ReadsIndexed (exec (.andIndY p) s) (wordOf (s.ram.read p.toNat) (s.ram.read (p + 1).toNat)) s.cpu.y s and) ∧
  (∀ m : Byte, Costs (.oraImm m) s [0x09, m] 2 ∧
    exec (.oraImm m) s = .next (ora s m)) ∧
  (∀ p : Byte, Costs (.oraZp p) s [0x05, p] 3 ∧
    ReadsAt (exec (.oraZp p) s) (p.setWidth 16) s ora) ∧
  (∀ p : Byte, Costs (.oraZpX p) s [0x15, p] 4 ∧
    ReadsAt (exec (.oraZpX p) s) ((p + s.cpu.x).setWidth 16) s ora) ∧
  (∀ a : Addr, Costs (.oraAbs a) s [0x0D, lo a, hi a] 4 ∧
    ReadsAt (exec (.oraAbs a) s) a s ora) ∧
  (∀ a : Addr, Costs (.oraAbsX a) s [0x1D, lo a, hi a] (4 + if 256 ≤ (lo a).toNat + s.cpu.x.toNat then 1 else 0) ∧
    ReadsIndexed (exec (.oraAbsX a) s) a s.cpu.x s ora) ∧
  (∀ a : Addr, Costs (.oraAbsY a) s [0x19, lo a, hi a] (4 + if 256 ≤ (lo a).toNat + s.cpu.y.toNat then 1 else 0) ∧
    ReadsIndexed (exec (.oraAbsY a) s) a s.cpu.y s ora) ∧
  (∀ p : Byte, Costs (.oraIndX p) s [0x01, p] 6 ∧
    ReadsAt (exec (.oraIndX p) s) (wordOf (s.ram.read (p + s.cpu.x).toNat) (s.ram.read (p + s.cpu.x + 1).toNat)) s ora) ∧
  (∀ p : Byte, Costs (.oraIndY p) s [0x11, p] (5 + if 256 ≤ (lo (wordOf (s.ram.read p.toNat) (s.ram.read (p + 1).toNat))).toNat + s.cpu.y.toNat then 1 else 0) ∧
    ReadsIndexed (exec (.oraIndY p) s) (wordOf (s.ram.read p.toNat) (s.ram.read (p + 1).toNat)) s.cpu.y s ora) ∧
  (∀ m : Byte, Costs (.eorImm m) s [0x49, m] 2 ∧
    exec (.eorImm m) s = .next (eor s m)) ∧
  (∀ p : Byte, Costs (.eorZp p) s [0x45, p] 3 ∧
    ReadsAt (exec (.eorZp p) s) (p.setWidth 16) s eor) ∧
  (∀ p : Byte, Costs (.eorZpX p) s [0x55, p] 4 ∧
    ReadsAt (exec (.eorZpX p) s) ((p + s.cpu.x).setWidth 16) s eor) ∧
  (∀ a : Addr, Costs (.eorAbs a) s [0x4D, lo a, hi a] 4 ∧
    ReadsAt (exec (.eorAbs a) s) a s eor) ∧
  (∀ a : Addr, Costs (.eorAbsX a) s [0x5D, lo a, hi a] (4 + if 256 ≤ (lo a).toNat + s.cpu.x.toNat then 1 else 0) ∧
    ReadsIndexed (exec (.eorAbsX a) s) a s.cpu.x s eor) ∧
  (∀ a : Addr, Costs (.eorAbsY a) s [0x59, lo a, hi a] (4 + if 256 ≤ (lo a).toNat + s.cpu.y.toNat then 1 else 0) ∧
    ReadsIndexed (exec (.eorAbsY a) s) a s.cpu.y s eor) ∧
  (∀ p : Byte, Costs (.eorIndX p) s [0x41, p] 6 ∧
    ReadsAt (exec (.eorIndX p) s) (wordOf (s.ram.read (p + s.cpu.x).toNat) (s.ram.read (p + s.cpu.x + 1).toNat)) s eor) ∧
  (∀ p : Byte, Costs (.eorIndY p) s [0x51, p] (5 + if 256 ≤ (lo (wordOf (s.ram.read p.toNat) (s.ram.read (p + 1).toNat))).toNat + s.cpu.y.toNat then 1 else 0) ∧
    ReadsIndexed (exec (.eorIndY p) s) (wordOf (s.ram.read p.toNat) (s.ram.read (p + 1).toNat)) s.cpu.y s eor) ∧
  (∀ p : Byte, Costs (.bitZp p) s [0x24, p] 3 ∧
    ReadsAt (exec (.bitZp p) s) (p.setWidth 16) s bit) ∧
  (∀ a : Addr, Costs (.bitAbs a) s [0x2C, lo a, hi a] 4 ∧
    ReadsAt (exec (.bitAbs a) s) a s bit)

/-- ASL, LSR, ROL, ROR on A and in memory: the result modulo 256, the bit shifted out in C, N and Z of the result -/
def Obligations.ShiftInstructions : Prop :=
  ∀ s : State,
    let asl : Cpu → Byte → Byte := fun _ v => BitVec.ofNat 8 (v.toNat * 2)
    let aslFlags : Cpu → Byte → Cpu := fun r v => { r with
      c := v.getLsbD 7, n := (asl r v).getLsbD 7, z := decide (asl r v = 0) }
    let lsr : Cpu → Byte → Byte := fun _ v => BitVec.ofNat 8 (v.toNat / 2)
    let lsrFlags : Cpu → Byte → Cpu := fun r v => { r with
      c := v.getLsbD 0, n := (lsr r v).getLsbD 7, z := decide (lsr r v = 0) }
    let rol : Cpu → Byte → Byte := fun r v => BitVec.ofNat 8 (v.toNat * 2 + r.c.toNat)
    let rolFlags : Cpu → Byte → Cpu := fun r v => { r with
      c := v.getLsbD 7, n := (rol r v).getLsbD 7, z := decide (rol r v = 0) }
    let ror : Cpu → Byte → Byte := fun r v => BitVec.ofNat 8 (v.toNat / 2 + r.c.toNat * 128)
    let rorFlags : Cpu → Byte → Cpu := fun r v => { r with
      c := v.getLsbD 0, n := (ror r v).getLsbD 7, z := decide (ror r v = 0) }
  (Costs .aslAcc s [0x0A] 2 ∧
    exec .aslAcc s = .next { s with cpu := { aslFlags s.cpu s.cpu.a with a := asl s.cpu s.cpu.a } }) ∧
  (∀ p : Byte, Costs (.aslZp p) s [0x06, p] 5 ∧
    ModifiesAt (exec (.aslZp p) s) (p.setWidth 16) s asl aslFlags) ∧
  (∀ p : Byte, Costs (.aslZpX p) s [0x16, p] 6 ∧
    ModifiesAt (exec (.aslZpX p) s) ((p + s.cpu.x).setWidth 16) s asl aslFlags) ∧
  (∀ a : Addr, Costs (.aslAbs a) s [0x0E, lo a, hi a] 6 ∧
    ModifiesAt (exec (.aslAbs a) s) a s asl aslFlags) ∧
  (∀ a : Addr, Costs (.aslAbsX a) s [0x1E, lo a, hi a] 7 ∧
    ModifiesAt (exec (.aslAbsX a) s) (a + s.cpu.x.setWidth 16) s asl aslFlags) ∧
  (Costs .lsrAcc s [0x4A] 2 ∧
    exec .lsrAcc s = .next { s with cpu := { lsrFlags s.cpu s.cpu.a with a := lsr s.cpu s.cpu.a } }) ∧
  (∀ p : Byte, Costs (.lsrZp p) s [0x46, p] 5 ∧
    ModifiesAt (exec (.lsrZp p) s) (p.setWidth 16) s lsr lsrFlags) ∧
  (∀ p : Byte, Costs (.lsrZpX p) s [0x56, p] 6 ∧
    ModifiesAt (exec (.lsrZpX p) s) ((p + s.cpu.x).setWidth 16) s lsr lsrFlags) ∧
  (∀ a : Addr, Costs (.lsrAbs a) s [0x4E, lo a, hi a] 6 ∧
    ModifiesAt (exec (.lsrAbs a) s) a s lsr lsrFlags) ∧
  (∀ a : Addr, Costs (.lsrAbsX a) s [0x5E, lo a, hi a] 7 ∧
    ModifiesAt (exec (.lsrAbsX a) s) (a + s.cpu.x.setWidth 16) s lsr lsrFlags) ∧
  (Costs .rolAcc s [0x2A] 2 ∧
    exec .rolAcc s = .next { s with cpu := { rolFlags s.cpu s.cpu.a with a := rol s.cpu s.cpu.a } }) ∧
  (∀ p : Byte, Costs (.rolZp p) s [0x26, p] 5 ∧
    ModifiesAt (exec (.rolZp p) s) (p.setWidth 16) s rol rolFlags) ∧
  (∀ p : Byte, Costs (.rolZpX p) s [0x36, p] 6 ∧
    ModifiesAt (exec (.rolZpX p) s) ((p + s.cpu.x).setWidth 16) s rol rolFlags) ∧
  (∀ a : Addr, Costs (.rolAbs a) s [0x2E, lo a, hi a] 6 ∧
    ModifiesAt (exec (.rolAbs a) s) a s rol rolFlags) ∧
  (∀ a : Addr, Costs (.rolAbsX a) s [0x3E, lo a, hi a] 7 ∧
    ModifiesAt (exec (.rolAbsX a) s) (a + s.cpu.x.setWidth 16) s rol rolFlags) ∧
  (Costs .rorAcc s [0x6A] 2 ∧
    exec .rorAcc s = .next { s with cpu := { rorFlags s.cpu s.cpu.a with a := ror s.cpu s.cpu.a } }) ∧
  (∀ p : Byte, Costs (.rorZp p) s [0x66, p] 5 ∧
    ModifiesAt (exec (.rorZp p) s) (p.setWidth 16) s ror rorFlags) ∧
  (∀ p : Byte, Costs (.rorZpX p) s [0x76, p] 6 ∧
    ModifiesAt (exec (.rorZpX p) s) ((p + s.cpu.x).setWidth 16) s ror rorFlags) ∧
  (∀ a : Addr, Costs (.rorAbs a) s [0x6E, lo a, hi a] 6 ∧
    ModifiesAt (exec (.rorAbs a) s) a s ror rorFlags) ∧
  (∀ a : Addr, Costs (.rorAbsX a) s [0x7E, lo a, hi a] 7 ∧
    ModifiesAt (exec (.rorAbsX a) s) (a + s.cpu.x.setWidth 16) s ror rorFlags)

/-- The eight branches: PC plus the sign-extended operand byte where the flag has the tested value, else nothing -/
def Obligations.BranchInstructions : Prop :=
  ∀ s : State,
  (∀ b1 : Byte, encode (.bcc b1.toInt) = [0x90, b1] ∧
    exec (.bcc b1.toInt) s = .next (if s.cpu.c = false then { s with cpu := { s.cpu with pc := s.cpu.pc + b1.signExtend 16 } } else s) ∧
    cyclesOf (.bcc b1.toInt) s = if s.cpu.c = false then (if hi s.cpu.pc = hi (s.cpu.pc + b1.signExtend 16) then 3 else 4) else 2) ∧
  (∀ b1 : Byte, encode (.bcs b1.toInt) = [0xB0, b1] ∧
    exec (.bcs b1.toInt) s = .next (if s.cpu.c = true then { s with cpu := { s.cpu with pc := s.cpu.pc + b1.signExtend 16 } } else s) ∧
    cyclesOf (.bcs b1.toInt) s = if s.cpu.c = true then (if hi s.cpu.pc = hi (s.cpu.pc + b1.signExtend 16) then 3 else 4) else 2) ∧
  (∀ b1 : Byte, encode (.beq b1.toInt) = [0xF0, b1] ∧
    exec (.beq b1.toInt) s = .next (if s.cpu.z = true then { s with cpu := { s.cpu with pc := s.cpu.pc + b1.signExtend 16 } } else s) ∧
    cyclesOf (.beq b1.toInt) s = if s.cpu.z = true then (if hi s.cpu.pc = hi (s.cpu.pc + b1.signExtend 16) then 3 else 4) else 2) ∧
  (∀ b1 : Byte, encode (.bne b1.toInt) = [0xD0, b1] ∧
    exec (.bne b1.toInt) s = .next (if s.cpu.z = false then { s with cpu := { s.cpu with pc := s.cpu.pc + b1.signExtend 16 } } else s) ∧
    cyclesOf (.bne b1.toInt) s = if s.cpu.z = false then (if hi s.cpu.pc = hi (s.cpu.pc + b1.signExtend 16) then 3 else 4) else 2) ∧
  (∀ b1 : Byte, encode (.bmi b1.toInt) = [0x30, b1] ∧
    exec (.bmi b1.toInt) s = .next (if s.cpu.n = true then { s with cpu := { s.cpu with pc := s.cpu.pc + b1.signExtend 16 } } else s) ∧
    cyclesOf (.bmi b1.toInt) s = if s.cpu.n = true then (if hi s.cpu.pc = hi (s.cpu.pc + b1.signExtend 16) then 3 else 4) else 2) ∧
  (∀ b1 : Byte, encode (.bpl b1.toInt) = [0x10, b1] ∧
    exec (.bpl b1.toInt) s = .next (if s.cpu.n = false then { s with cpu := { s.cpu with pc := s.cpu.pc + b1.signExtend 16 } } else s) ∧
    cyclesOf (.bpl b1.toInt) s = if s.cpu.n = false then (if hi s.cpu.pc = hi (s.cpu.pc + b1.signExtend 16) then 3 else 4) else 2) ∧
  (∀ b1 : Byte, encode (.bvc b1.toInt) = [0x50, b1] ∧
    exec (.bvc b1.toInt) s = .next (if s.cpu.v = false then { s with cpu := { s.cpu with pc := s.cpu.pc + b1.signExtend 16 } } else s) ∧
    cyclesOf (.bvc b1.toInt) s = if s.cpu.v = false then (if hi s.cpu.pc = hi (s.cpu.pc + b1.signExtend 16) then 3 else 4) else 2) ∧
  (∀ b1 : Byte, encode (.bvs b1.toInt) = [0x70, b1] ∧
    exec (.bvs b1.toInt) s = .next (if s.cpu.v = true then { s with cpu := { s.cpu with pc := s.cpu.pc + b1.signExtend 16 } } else s) ∧
    cyclesOf (.bvs b1.toInt) s = if s.cpu.v = true then (if hi s.cpu.pc = hi (s.cpu.pc + b1.signExtend 16) then 3 else 4) else 2)

/-- JMP, JMP indirect with its page wrap, JSR pushing PC - 1 high byte first, RTS adding 1 -/
def Obligations.JumpInstructions : Prop :=
  ∀ s : State,
  (∀ a : Addr, Costs (.jmpAbs a) s [0x4C, lo a, hi a] 3 ∧
    exec (.jmpAbs a) s = .next { s with cpu := { s.cpu with pc := a } }) ∧
  (∀ a : Addr, Costs (.jmpInd a) s [0x6C, lo a, hi a] 5 ∧
    (s.readAdmitted a = true → (s.afterRead a).readAdmitted (wordOf (lo a + 1) (hi a)) = true →
      exec (.jmpInd a) s = .next { (s.afterRead a).afterRead (wordOf (lo a + 1) (hi a)) with
        cpu := { s.cpu with pc := wordOf (s.readValue a) ((s.afterRead a).readValue (wordOf (lo a + 1) (hi a))) } }) ∧
    (s.readAdmitted a = false ∨ (s.afterRead a).readAdmitted (wordOf (lo a + 1) (hi a)) = false →
      exec (.jmpInd a) s = .refused .oamUnsafe ∨ exec (.jmpInd a) s = .refused .vramUnsafe) ∧
    (s.plain a = true → s.plain (wordOf (lo a + 1) (hi a)) = true →
      exec (.jmpInd a) s = .next { s with
        cpu := { s.cpu with pc := wordOf (s.plainByte a) (s.plainByte (wordOf (lo a + 1) (hi a))) } })) ∧
  (∀ a : Addr, Costs (.jsr a) s [0x20, lo a, hi a] 6 ∧
    exec (.jsr a) s = .next { s with
      cpu := { s.cpu with sp := s.cpu.sp - 2, pc := a }
      ram := (s.ram.write (0x100 + s.cpu.sp.toNat) (hi (s.cpu.pc - 1))).write (0x100 + (s.cpu.sp - 1).toNat)
        (lo (s.cpu.pc - 1)) }) ∧
  (Costs .rts s [0x60] 6 ∧
    exec .rts s = .next { s with cpu := { s.cpu with
      sp := s.cpu.sp + 2
      pc := wordOf (s.ram.read (0x100 + (s.cpu.sp + 1).toNat)) (s.ram.read (0x100 + (s.cpu.sp + 2).toNat)) + 1 } })

/-- CLC, SEC, CLI, SEI, CLD, SED, CLV write one flag; NOP writes nothing -/
def Obligations.FlagInstructions : Prop :=
  ∀ s : State,
  (Costs .clc s [0x18] 2 ∧
    exec .clc s = .next { s with cpu := { s.cpu with c := false } }) ∧
  (Costs .sec s [0x38] 2 ∧
    exec .sec s = .next { s with cpu := { s.cpu with c := true } }) ∧
  (Costs .cli s [0x58] 2 ∧
    exec .cli s = .next { s with cpu := { s.cpu with i := false } }) ∧
  (Costs .sei s [0x78] 2 ∧
    exec .sei s = .next { s with cpu := { s.cpu with i := true } }) ∧
  (Costs .cld s [0xD8] 2 ∧
    exec .cld s = .next { s with cpu := { s.cpu with d := false } }) ∧
  (Costs .sed s [0xF8] 2 ∧
    exec .sed s = .next { s with cpu := { s.cpu with d := true } }) ∧
  (Costs .clv s [0xB8] 2 ∧
    exec .clv s = .next { s with cpu := { s.cpu with v := false } }) ∧
  (Costs .nop s [0xEA] 2 ∧
    exec .nop s = .next s)

/-- Each flag is changed only by the instructions R17 lists as its writers -/
def Obligations.FlagWriters : Prop :=
  ∀ (i : Instr) (s t : State), exec i s = .next t →
    (mnemonicOf i ∉ ["LDA", "LDX", "LDY", "TAX", "TAY", "TXA", "TYA", "TSX", "PLA", "ADC", "SBC", "AND", "ORA", "EOR",
        "INC", "DEC", "INX", "DEX", "INY", "DEY", "ASL", "LSR", "ROL", "ROR", "CMP", "CPX", "CPY", "BIT",
        "PLP", "RTI"] → t.cpu.n = s.cpu.n ∧ t.cpu.z = s.cpu.z) ∧
    (mnemonicOf i ∉ ["ADC", "SBC", "BIT", "CLV", "PLP", "RTI"] → t.cpu.v = s.cpu.v) ∧
    (mnemonicOf i ∉ ["SED", "CLD", "PLP", "RTI"] → t.cpu.d = s.cpu.d) ∧
    (mnemonicOf i ∉ ["SEI", "CLI", "BRK", "PLP", "RTI"] → t.cpu.i = s.cpu.i) ∧
    (mnemonicOf i ∉ ["ADC", "SBC", "CMP", "CPX", "CPY", "ASL", "ROL", "LSR", "ROR", "SEC", "CLC", "PLP", "RTI"] →
      t.cpu.c = s.cpu.c)

/-- A, X, Y and S are changed only by the instructions R10 lists as their writers. Of PC R10 says "by every instruction": exec
sees it already past the instruction (R84; the model's arrangement, log 39), so there only the thirteen control transfers of
45_control_flow.md and 46_flags_system.md write it. -/
def Obligations.RegisterWriters : Prop :=
  ∀ (i : Instr) (s t : State), exec i s = .next t →
    (mnemonicOf i ∉ ["LDA", "PLA", "TXA", "TYA", "ADC", "SBC", "AND", "ORA", "EOR"] → modeOf i ≠ .accumulator →
      t.cpu.a = s.cpu.a) ∧
    (mnemonicOf i ∉ ["LDX", "TAX", "TSX", "INX", "DEX"] → t.cpu.x = s.cpu.x) ∧
    (mnemonicOf i ∉ ["LDY", "TAY", "INY", "DEY"] → t.cpu.y = s.cpu.y) ∧
    (mnemonicOf i ∉ ["TXS", "PHA", "PLA", "PHP", "PLP", "JSR", "RTS", "BRK", "RTI"] → t.cpu.sp = s.cpu.sp) ∧
    (mnemonicOf i ∉ ["JMP", "JSR", "RTS", "RTI", "BRK", "BCC", "BCS", "BEQ", "BNE", "BMI", "BPL", "BVC", "BVS"] →
      t.cpu.pc = s.cpu.pc)

/-- A write of PPUCTRL raises NMI exactly when vblank is set and bit 7 goes from 0 to 1; a read of $2002 drops the line -/
def Obligations.NmiOutput : Prop :=
  ∀ (s : State) (d : Byte), s.ppu.vblanksSeen = 2 → d.getLsbD 6 = false →
    (∃ t, memWrite 0x2000 d s = .ok t ∧ t.ppu.ctrl = d ∧
      t.cpu.nmiPending = (s.cpu.nmiPending || (s.ppu.vblank && d.getLsbD 7 && !s.ppu.ctrl.getLsbD 7))) ∧
    (∃ b t u, memRead 0x2002 s = .ok (b, t) ∧ t.cpu = s.cpu ∧ t.ppu.vblank = false ∧
      memWrite 0x2000 d t = .ok u ∧ u.cpu = s.cpu ∧ u.ppu.ctrl = d)

/-- A read of $2002: the three flags in bits 7 to 5, then vblank and the write toggle are cleared (R266). That a read that gives
bit 7 = 1 is what R396 calls observing vblank, and counts toward the end of warm-up, is the model's reading (log 12). -/
def Obligations.StatusRead : Prop :=
  ∀ (s : State) (a : Addr), 0x2000 ≤ a.toNat → a.toNat < 0x4000 → a.toNat % 8 = 2 →
    ∃ b t, memRead a s = .ok (b, t) ∧
      b.getLsbD 7 = s.ppu.vblank ∧ b.getLsbD 6 = s.ppu.sprite0Hit ∧ b.getLsbD 5 = s.ppu.spriteOverflow ∧
      t = { s with
        fresh := s.fresh + 1
        ppu := { s.ppu with
          vblank := false, w := false
          vblanksSeen := if s.ppu.vblank = true ∧ s.ppu.vblanksSeen < 2 then s.ppu.vblanksSeen + 1 else s.ppu.vblanksSeen } } ∧
      ∃ b' t', memRead a t = .ok (b', t') ∧ b'.getLsbD 7 = false

/-- $2003 sets oamaddr; $2004 stores and increments, or reads without incrementing; $2004 is refused outside vram_safe -/
def Obligations.OamPort : Prop :=
  ∀ (s : State) (a : Addr) (d : Byte), 0x2000 ≤ a.toNat → a.toNat < 0x4000 →
    (a.toNat % 8 = 3 → memWrite a d s = .ok { s with ppu := { s.ppu with oamAddr := d } }) ∧
    (a.toNat % 8 = 4 → s.ppu.vramSafe = true →
      (∃ t, memWrite a d s = .ok t ∧
        t = { s with ppu := { s.ppu with oam := t.ppu.oam, oamAddr := s.ppu.oamAddr + 1 } } ∧
        ∀ k, t.ppu.oam.read k = if k = s.ppu.oamAddr.toNat then d else s.ppu.oam.read k) ∧
      ∃ b, memRead a s = .ok (b, s) ∧ ∀ bit, b.getLsbD bit =
        ((s.ppu.oam.read s.ppu.oamAddr.toNat).getLsbD bit &&
          !(decide (s.ppu.oamAddr.toNat % 4 = 2) && decide (2 ≤ bit) && decide (bit ≤ 4)))) ∧
    (a.toNat % 8 = 4 → s.ppu.vramSafe = false →
      memWrite a d s = .error .oamUnsafe ∧ memRead a s = .error .oamUnsafe)

/-- PPUCTRL and PPUMASK writes (R263, R264). During warm-up a write of $2000, $2001, $2005 or $2006 is applied or dropped
(R396); which of the two is a free value of the model, and that warm-up ends with the second read of $2002 that gives bit 7
is its reading of "observed" (log 12). A rise of v bit 12 clocks the MMC3 a free number of times (R351, log 11). -/
def Obligations.PpuControlAndMask : Prop :=
  ∀ (s : State) (a : Addr) (d : Byte), 0x2000 ≤ a.toNat → a.toNat < 0x4000 →
    (a.toNat % 8 = 0 → d.getLsbD 6 = true → memWrite a d s = .error .masterSlaveBit) ∧
    (a.toNat % 8 = 0 → d.getLsbD 6 = false → ∃ t, memWrite a d s = .ok t ∧
      t = { s with cpu := { s.cpu with nmiPending := t.cpu.nmiPending }, ppu := t.ppu, fresh := t.fresh } ∧
      ((t.ppu = { s.ppu with ctrl := d, t := t.ppu.t } ∧
          t.cpu.nmiPending = (s.cpu.nmiPending || (s.ppu.vblank && d.getLsbD 7 && !s.ppu.ctrl.getLsbD 7)) ∧ t.ppu.t.extractLsb' 10 2 = d.extractLsb' 0 2 ∧
          t.ppu.t.extractLsb' 0 10 = s.ppu.t.extractLsb' 0 10 ∧ t.ppu.t.extractLsb' 12 3 = s.ppu.t.extractLsb' 12 3) ∨
        (s.ppu.vblanksSeen < 2 ∧ t.ppu = s.ppu ∧ t.cpu = s.cpu))) ∧
    (a.toNat % 8 = 1 → ∃ t, memWrite a d s = .ok t ∧ t = { s with ppu := t.ppu, fresh := t.fresh } ∧
      (t.ppu = { s.ppu with mask := d } ∨ (s.ppu.vblanksSeen < 2 ∧ t.ppu = s.ppu))) ∧
    (a.toNat % 8 = 5 ∨ a.toNat % 8 = 6 → ∃ t u, memWrite a d s = .ok t ∧
      memWrite a d { s with ppu := { s.ppu with vblanksSeen := 2 } } = .ok u ∧
      t = { s with ppu := t.ppu, mmc3 := t.mmc3, fresh := t.fresh } ∧ A12Effect s t ∧
      (t.ppu = { u.ppu with vblanksSeen := s.ppu.vblanksSeen } ∨
        (s.ppu.vblanksSeen < 2 ∧ t.ppu = s.ppu ∧ t.mmc3 = s.mmc3)))

/-- $2005 and $2006 share the toggle w: which bits of t, fine_x and v each of the two writes sets (R269, R270). A $2006 write
that takes v bit 12 from 0 to 1 clocks the MMC3 a number of times that is free (R351, log 11); warm-up is over after two
reads of $2002 that give bit 7 (log 12). -/
def Obligations.ScrollAndAddressWrites : Prop :=
  ∀ (s : State) (a : Addr) (d : Byte), 0x2000 ≤ a.toNat → a.toNat < 0x4000 → s.ppu.vblanksSeen = 2 →
    (a.toNat % 8 = 5 → ∃ t, memWrite a d s = .ok t ∧ t = { s with ppu := t.ppu } ∧
      (s.ppu.w = false → t.ppu = { s.ppu with t := t.ppu.t, fineX := d.extractLsb' 0 3, w := true } ∧
        t.ppu.t.extractLsb' 0 5 = d.extractLsb' 3 5 ∧ t.ppu.t.extractLsb' 5 10 = s.ppu.t.extractLsb' 5 10) ∧
      (s.ppu.w = true → t.ppu = { s.ppu with t := t.ppu.t, w := false } ∧
        t.ppu.t.extractLsb' 12 3 = d.extractLsb' 0 3 ∧ t.ppu.t.extractLsb' 5 5 = d.extractLsb' 3 5 ∧
        t.ppu.t.extractLsb' 0 5 = s.ppu.t.extractLsb' 0 5 ∧ t.ppu.t.extractLsb' 10 2 = s.ppu.t.extractLsb' 10 2)) ∧
    (a.toNat % 8 = 6 → ∃ t, memWrite a d s = .ok t ∧
      t = { s with ppu := t.ppu, mmc3 := t.mmc3, fresh := t.fresh } ∧ A12Effect s t ∧
      (s.ppu.w = false → t.ppu = { s.ppu with t := t.ppu.t, w := true } ∧
        t.ppu.t.extractLsb' 8 6 = d.extractLsb' 0 6 ∧ t.ppu.t.getLsbD 14 = false ∧
        t.ppu.t.extractLsb' 0 8 = s.ppu.t.extractLsb' 0 8) ∧
      (s.ppu.w = true → t.ppu = { s.ppu with t := t.ppu.t, v := t.ppu.t, w := false } ∧
        t.ppu.t.extractLsb' 0 8 = d ∧ t.ppu.t.extractLsb' 8 7 = s.ppu.t.extractLsb' 8 7)) ∧
    (∀ h l : Byte, s.ppu.w = false → ∃ t u, memWrite 0x2006 h s = .ok t ∧ memWrite 0x2006 l t = .ok u ∧
      u.ppu.v.toNat = 256 * (h.toNat % 64) + l.toNat ∧ u.ppu.w = false ∧ t.ppu.v = s.ppu.v)

/-- A $2007 access: write stores at v and advances it; read is buffered below $3F00, direct in the palette; refused unless safe
(R271, R272, R278, R294). Where v bit 12 goes from 0 to 1 it clocks the MMC3 a number of times that is free (R351, log 11). -/
def Obligations.VramPort : Prop :=
  ∀ (s : State) (a : Addr) (d : Byte), 0x2000 ≤ a.toNat → a.toNat < 0x4000 → a.toNat % 8 = 7 →
    let address : PpuAddr := s.ppu.v.extractLsb' 0 14
    let next : BitVec 15 := s.ppu.v + (if s.ppu.ctrl.getLsbD 2 then 32 else 1)
    (s.ppu.vramSafe = false → memWrite a d s = .error .vramUnsafe ∧ memRead a s = .error .vramUnsafe) ∧
    (s.ppu.vramSafe = true →
      (∃ t, memWrite a d s = .ok t ∧ t.ppu = { (s.ppuWrite address d).ppu with v := next } ∧
        t = { s with ppu := t.ppu, mmc3 := t.mmc3, fresh := t.fresh } ∧ A12Effect s t) ∧
      ∃ b t, memRead a s = .ok (b, t) ∧ t = { s with ppu := t.ppu, mmc3 := t.mmc3, fresh := t.fresh } ∧ A12Effect s t ∧
        (address.toNat < 0x3F00 →
          b = s.ppu.readBuffer ∧ t.ppu = { s.ppu with v := next, readBuffer := s.ppuRead address }) ∧
        (0x3F00 ≤ address.toNat → b.extractLsb' 0 6 = (s.ppuRead address).extractLsb' 0 6 ∧
          t.ppu = { s.ppu with v := next, readBuffer := s.ppuRead (address - 0x1000) }))

/-- Two reads of $2007 below the palette: the first gives the old buffer, the second the byte at the address set -/
def Obligations.ReadBufferDelay : Prop :=
  ∀ s : State, s.ppu.vramSafe = true →
    let step1 : BitVec 15 := s.ppu.v + (if s.ppu.ctrl.getLsbD 2 then 32 else 1)
    (s.ppu.v.extractLsb' 0 14).toNat < 0x3F00 → (step1.extractLsb' 0 14).toNat < 0x3F00 →
    ∃ b t b' u, memRead 0x2007 s = .ok (b, t) ∧ memRead 0x2007 t = .ok (b', u) ∧
      b = s.ppu.readBuffer ∧ b' = s.ppuRead (s.ppu.v.extractLsb' 0 14) ∧ t.ppu.v = step1 ∧
      u.ppu.v = step1 + (if s.ppu.ctrl.getLsbD 2 then 32 else 1)

/-- PPU memory: CHR is read-only, nametables mirror as $A000 says, the palette has 28 bytes of 6 bits -/
def Obligations.PpuMemoryMirrors : Prop :=
  ∀ (s : State) (a b : PpuAddr) (d : Byte),
    let page : PpuAddr → Nat := fun x =>
      if s.mmc3.mirroring then x.toNat / 0x400 % 4 / 2 else x.toNat / 0x400 % 4 % 2
    let entry : PpuAddr → Nat := fun x =>
      if x.toNat % 0x20 = 0x10 ∨ x.toNat % 0x20 = 0x14 ∨ x.toNat % 0x20 = 0x18 ∨ x.toNat % 0x20 = 0x1C then
        x.toNat % 0x20 - 0x10 else x.toNat % 0x20
    (a.toNat < 0x2000 → s.ppuRead a = s.chr.read (s.mmc3.chrOffset a) ∧ s.ppuWrite a d = s) ∧
    (0x2000 ≤ a.toNat → a.toNat < 0x3F00 →
      s.ppuRead a = s.ppu.nametables.read (page a * 0x400 + a.toNat % 0x400) ∧
      (s.ppuWrite a d).ppuRead b =
        if 0x2000 ≤ b.toNat ∧ b.toNat < 0x3F00 ∧ page b = page a ∧ b.toNat % 0x400 = a.toNat % 0x400 then d
        else s.ppuRead b) ∧
    (0x3F00 ≤ a.toNat →
      s.ppuRead a = s.ppu.palette.read (entry a) ∧
      (s.ppuWrite a d).ppuRead b =
        if 0x3F00 ≤ b.toNat ∧ entry b = entry a then d &&& 0x3F else s.ppuRead b)

/-- A frame is 262 scanlines of 341 dots; vblank is set at (241,1) with one NMI, and cleared at (261,1) -/
def Obligations.FramePositionAndNmi : Prop :=
  (∀ (s : State) (k : Nat), s.ppu.scanline < 262 → s.ppu.dot < 341 →
    (State.ppuRun k s).ppu.scanline * 341 + (State.ppuRun k s).ppu.dot =
      (s.ppu.scanline * 341 + s.ppu.dot + k) % 89342 ∧ (State.ppuRun k s).ppu.dot < 341) ∧
  (∀ (s : State) (k : Nat), s.ppu.scanline = 0 → s.ppu.dot = 0 → s.ppu.ctrl.getLsbD 7 = true → s.ppu.vblank = false →
    s.cpu.nmiPending = false → k ≤ 89342 →
    (State.ppuRun k s).ppu.vblank = decide (82182 ≤ k ∧ k < 89002) ∧
    (State.ppuRun k s).cpu.nmiPending = decide (82182 ≤ k))

/-- Sprite flags rise only while rendering scanlines 0-239, stay set until (261,1), and clear there -/
def Obligations.SpriteFlagsBounded : Prop :=
  (∀ s : State,
    (s.ppuDot.ppu.sprite0Hit = true → s.ppu.sprite0Hit = true ∨ (s.ppu.rendering = true ∧ s.ppuDot.ppu.scanline ≤ 239)) ∧
    (s.ppuDot.ppu.spriteOverflow = true →
      s.ppu.spriteOverflow = true ∨ (s.ppu.rendering = true ∧ s.ppuDot.ppu.scanline ≤ 239)) ∧
    (¬(s.ppuDot.ppu.scanline = 261 ∧ s.ppuDot.ppu.dot = 1) →
      (s.ppu.sprite0Hit = true → s.ppuDot.ppu.sprite0Hit = true) ∧
      (s.ppu.spriteOverflow = true → s.ppuDot.ppu.spriteOverflow = true)) ∧
    (s.ppuDot.ppu.scanline = 261 → s.ppuDot.ppu.dot = 1 →
      s.ppuDot.ppu.sprite0Hit = false ∧ s.ppuDot.ppu.spriteOverflow = false)) ∧
  (∀ (s : State) (k : Nat), s.ppu.rendering = false →
    ((State.ppuRun k s).ppu.sprite0Hit = true → s.ppu.sprite0Hit = true) ∧
    ((State.ppuRun k s).ppu.spriteOverflow = true → s.ppu.spriteOverflow = true))

/-- A write to $8000-$FFFF reaches one of eight MMC3 registers, chosen by address bits 14, 13 and 0, and nothing else -/
def Obligations.Mmc3RegisterWrites : Prop :=
  ∀ (s : State) (a : Addr), 0x8000 ≤ a.toNat →
    let d := s.cpu.a
    let m := s.mmc3
    let even := a.toNat % 2 = 0
    (a.toNat < 0xA000 → even → exec (.staAbs a) s = .next { s with mmc3 := { m with bankSelect := d } }) ∧
    (a.toNat < 0xA000 → ¬even → exec (.staAbs a) s = .next { s with mmc3 :=
      if m.bankSelect.toNat % 8 = 0 then { m with r0 := d } else if m.bankSelect.toNat % 8 = 1 then { m with r1 := d }
      else if m.bankSelect.toNat % 8 = 2 then { m with r2 := d } else if m.bankSelect.toNat % 8 = 3 then { m with r3 := d }
      else if m.bankSelect.toNat % 8 = 4 then { m with r4 := d } else if m.bankSelect.toNat % 8 = 5 then { m with r5 := d }
      else if m.bankSelect.toNat % 8 = 6 then { m with r6 := d } else { m with r7 := d } }) ∧
    (0xA000 ≤ a.toNat → a.toNat < 0xC000 → even →
      exec (.staAbs a) s = .next { s with mmc3 := { m with mirroring := d.getLsbD 0 } }) ∧
    (0xA000 ≤ a.toNat → a.toNat < 0xC000 → ¬even →
      exec (.staAbs a) s = .next { s with mmc3 := { m with prgRamProtect := d } }) ∧
    (0xC000 ≤ a.toNat → a.toNat < 0xE000 → even →
      exec (.staAbs a) s = .next { s with mmc3 := { m with irqLatch := d } }) ∧
    (0xC000 ≤ a.toNat → a.toNat < 0xE000 → ¬even →
      exec (.staAbs a) s = .next { s with mmc3 := { m with irqCounter := 0, irqReload := true } }) ∧
    (0xE000 ≤ a.toNat → even →
      exec (.staAbs a) s = .next { s with mmc3 := { m with irqEnable := false, irqPending := false } }) ∧
    (0xE000 ≤ a.toNat → ¬even → exec (.staAbs a) s = .next { s with mmc3 := { m with irqEnable := true } })

/-- The PRG ROM byte each of the four 8KB windows shows, by R[6], R[7] and the mode bit -/
def Obligations.PrgWindows : Prop :=
  ∀ (s : State) (a : Addr), 0x8000 ≤ a.toNat →
    let m := s.mmc3
    let mode1 := m.bankSelect.getLsbD 7 = true
    let bank : Nat :=
      if a.toNat < 0xA000 then (if mode1 then 30 else m.r6.toNat % 32)
      else if a.toNat < 0xC000 then m.r7.toNat % 32
      else if a.toNat < 0xE000 then (if mode1 then m.r6.toNat % 32 else 30)
      else 31
    m.prgOffset a = bank * 0x2000 + a.toNat % 0x2000 ∧ m.prgOffset a < 0x40000 ∧
    memRead a s = .ok (s.prg.read (bank * 0x2000 + a.toNat % 0x2000), s) ∧
    (0xE000 ≤ a.toNat → ∀ m' : Mmc3, m'.prgOffset a = 0x3E000 + (a.toNat - 0xE000))

/-- The CHR ROM byte each PPU address below $2000 shows, by R[0] to R[5] and the A12 inversion bit -/
def Obligations.ChrWindows : Prop :=
  ∀ (s : State) (a : PpuAddr), a.toNat < 0x2000 →
    let m := s.mmc3
    let b : Nat := if m.bankSelect.getLsbD 6 then (a.toNat + 0x1000) % 0x2000 else a.toNat
    let unit : Nat :=
      if b < 0x400 then m.r0.toNat / 2 * 2 else if b < 0x800 then m.r0.toNat / 2 * 2 + 1
      else if b < 0xC00 then m.r1.toNat / 2 * 2 else if b < 0x1000 then m.r1.toNat / 2 * 2 + 1
      else if b < 0x1400 then m.r2.toNat else if b < 0x1800 then m.r3.toNat
      else if b < 0x1C00 then m.r4.toNat else m.r5.toNat
    m.chrOffset a = unit % 128 * 0x400 + b % 0x400 ∧ m.chrOffset a < 0x20000 ∧
    s.ppuRead a = s.chr.read (unit % 128 * 0x400 + b % 0x400)

/-- One clock of the scanline counter; and N after $C000 <- N, $C001, $E001 requests an IRQ at clock N + 1, not before -/
def Obligations.ScanlineCounterTarget : Prop :=
  (∀ m : Mmc3,
    let counter : Byte := if m.irqCounter = 0 ∨ m.irqReload = true then m.irqLatch else m.irqCounter - 1
    m.clock = { m with
      irqCounter := counter, irqReload := false
      irqPending := if counter = 0 ∧ m.irqEnable = true then true else m.irqPending }) ∧
  (∀ (m : Mmc3) (k : Nat), 1 ≤ m.irqLatch.toNat → m.irqReload = true → m.irqEnable = true → m.irqPending = false →
    (Mmc3.clockTimes k m).irqPending = decide (m.irqLatch.toNat + 1 ≤ k) ∧
    (1 ≤ k → k ≤ m.irqLatch.toNat + 1 → (Mmc3.clockTimes k m).irqCounter.toNat = m.irqLatch.toNat + 1 - k))

/-- A frame with rendering on in the standard pattern tables clocks the MMC3 241 times; with rendering off, never (R291, R351,
R353). R291 and R351 say "about dot 260": that the clock falls exactly there is the model's reading (log 11, DEDUCED). -/
def Obligations.ClocksPerFrame : Prop :=
  (∀ s : State, s.ppu.rendering = true → s.ppu.standardPatterns = true →
    s.ppuDot.mmc3 = (if s.ppuDot.ppu.dot = 260 ∧ (s.ppuDot.ppu.scanline ≤ 239 ∨ s.ppuDot.ppu.scanline = 261) then
      s.mmc3.clock else s.mmc3) ∧
    (s.ppu.scanline = 0 → s.ppu.dot = 0 → (State.ppuRun 89342 s).mmc3 = Mmc3.clockTimes 241 s.mmc3)) ∧
  (∀ (s : State) (k : Nat), s.ppu.rendering = false → (State.ppuRun k s).mmc3 = s.mmc3)

/-- The iNES image and the two address conversions are inverse to each other, with the corrected constants 0x3E010 and 0x3C010 -/
def Obligations.ImageAndFileOffsets : Prop :=
  (∀ (file : List Byte) (i : Nat), file.length = 0x60010 →
    (i < 0x40000 → (inesPrg file).read i = file.getD (0x10 + i) 0) ∧
    (i < 0x20000 → (inesChr file).read i = file.getD (0x40010 + i) 0)) ∧
  (∀ (m : Mmc3) (a : Addr) (offset : Nat),
    (a ∈ m.cpuAddresses offset ↔ m.fileOffset a = some offset) ∧
    (a.toNat < 0x8000 → m.fileOffset a = none) ∧
    (offset < 0x10 ∨ 0x40010 ≤ offset → m.cpuAddresses offset = []) ∧
    (0xE000 ≤ a.toNat → m.fileOffset a = some (a.toNat - 0xE000 + 0x3E010) ∧ m.fileOffset a = fixedFileOffset a) ∧
    (0xC000 ≤ a.toNat → m.bankSelect.getLsbD 7 = false →
      m.fileOffset a = some (a.toNat - 0xC000 + 0x3C010) ∧ m.fileOffset a = m.lastBankFileOffset a ∧
      bank15CpuAddress (a.toNat - 0xC000 + 0x3C010) = some a))

/-- APU register writes are sinks (R311), but for the facts that gate the APU's IRQ (R312, R315, R316); starting the DMC is
refused. That every write to $4000-$4013, $4015 and $4017 is kept in a history, the newest first, is the model's choice
(log 35): R311 only lets a model record them. -/
def Obligations.ApuRegisterWrites : Prop :=
  ∀ (s : State) (a : Addr) (d : Byte),
    (0x4000 ≤ a.toNat → a.toNat ≤ 0x4013 → memWrite a d s = .ok { s with apu := { s.apu with
      writes := (a.toNat, d) :: s.apu.writes
      dmcIrqEnabled := s.apu.dmcIrqEnabled || (decide (a.toNat = 0x4010) && d.getLsbD 7) } }) ∧
    (d.getLsbD 4 = true → memWrite 0x4015 d s = .error .dmcPlayback) ∧
    (d.getLsbD 4 = false → memWrite 0x4015 d s = .ok { s with apu := { s.apu with
      writes := (0x4015, d) :: s.apu.writes, dmcIrq := false } }) ∧
    memWrite 0x4017 d s = .ok { s with apu := { s.apu with
      writes := (0x4017, d) :: s.apu.writes
      frameIrqInhibit := d.getLsbD 6
      frameIrq := if d.getLsbD 6 then false else s.apu.frameIrq } }

/-- With the frame IRQ inhibited and the DMC IRQ never enabled, the IRQ line is the MMC3's request alone (R228, R229). The
model's readings, not the spec's words: that the last $4017 write decides, by R316, where R229 says "has written" (log 22),
and that a request of the host's script latches its component and asserts the line while its own gate is open (log 23). -/
def Obligations.ApuIrqGate : Prop :=
  ∀ s : State,
    (s.apu.frameIrqInhibit = true → s.apu.dmcIrqEnabled = false → s.takeInput.irqLine = s.mmc3.irqPending) ∧
    (s.apu.frameIrqInhibit = false → s.nextInput.frameIrq = true → s.takeInput.irqLine = true) ∧
    (s.apu.dmcIrqEnabled = true → s.nextInput.dmcIrq = true → s.takeInput.irqLine = true) ∧
    s.takeIrq.irqLine = s.irqLine

/-- After the strobe falls, the reads of $4016 and $4017 give the eight buttons in order and then ones (R321, R322). The
shift protocol is the constraint R322 leaves to the modeller: the model's choice, log 25. -/
def Obligations.ControllerProtocol : Prop :=
  let read : Addr → State → State := fun a s => s.afterRead a
  ∀ (s : State) (n : Nat),
    let upper : Byte → Nat → Prop := fun b draw =>
      b.extractLsb' 5 3 = (Config.openBus draw).extractLsb' 5 3 ∧
      b.extractLsb' 1 4 = if s.pads.standard then 0 else (Config.openBus draw).extractLsb' 1 4
    (s.pads.strobe = true →
      (s.readValue 0x4016).getLsbD 0 = s.pads.buttons1.getLsbD 0 ∧
      (s.readValue 0x4017).getLsbD 0 = s.pads.buttons2.getLsbD 0 ∧
      s.afterRead 0x4016 = { s with fresh := s.fresh + 1 } ∧ s.afterRead 0x4017 = { s with fresh := s.fresh + 1 }) ∧
    (∃ t u, memWrite 0x4016 0x01 s = .ok t ∧ t = { s with pads := { s.pads with strobe := true, shift1 := t.pads.shift1, shift2 := t.pads.shift2 } } ∧
      memWrite 0x4016 0x00 t = .ok u ∧
      (((read 0x4016)^[n] u).readValue 0x4016).getLsbD 0 = (if n < 8 then s.pads.buttons1.getLsbD n else true) ∧
      (((read 0x4017)^[n] u).readValue 0x4017).getLsbD 0 = (if n < 8 then s.pads.buttons2.getLsbD n else true) ∧
      upper (((read 0x4016)^[n] u).readValue 0x4016) (u.fresh + n) ∧
      upper (((read 0x4017)^[n] u).readValue 0x4017) (u.fresh + n) ∧
      (read 0x4016)^[n] u = { u with
        fresh := u.fresh + n, pads := { u.pads with shift1 := ((read 0x4016)^[n] u).pads.shift1 } } ∧
      (read 0x4017)^[n] u = { u with
        fresh := u.fresh + n, pads := { u.pads with shift2 := ((read 0x4017)^[n] u).pads.shift2 } })

/-- A $4014 write starts the DMA engine, whose 256 steps copy the page to OAM from oamaddr on (R318); a device page is refused
(R318), and so is any page outside vram_safe (R401). The model's choice, not the spec's words: one byte a step, and how the
513 or 514 cycles of R415 are spread over them, with the parity taken from the counter when the first byte is copied (log 26). -/
def Obligations.OamDmaCopiesPage : Prop :=
  ∀ (s : State) (d : Byte),
    (0x20 ≤ d.toNat → d.toNat ≤ 0x5F → memWrite 0x4014 d s = .error (.dmaFromDevice d)) ∧
    (¬(0x20 ≤ d.toNat ∧ d.toNat ≤ 0x5F) → s.ppu.vramSafe = false → memWrite 0x4014 d s = .error .dmaUnsafe) ∧
    (¬(0x20 ≤ d.toNat ∧ d.toNat ≤ 0x5F) → s.ppu.vramSafe = true →
      ∃ t, memWrite 0x4014 d s = .ok t ∧ t = { s with dma := t.dma } ∧ t.dma.active = true ∧ t.dma.index = 0 ∧ t.dma.page = d ∧
        (s.plain (wordOf 0x00 d) = true →
          ∃ u, dmaStepsFrom 256 t = some u ∧ u.dma.active = false ∧
            u = { s with ppu := { s.ppu with oam := u.ppu.oam }, dma := u.dma } ∧
            ∀ i : Byte, u.ppu.oam.read (s.ppu.oamAddr + i).toNat = s.plainByte (wordOf i d))) ∧
    (∀ (u v : State) (inp : HostInput), u.dma.active = true → u.timed = true → u.dmaMove inp = .next v →
      (u.dma.index = 0 → v.cycles = u.cycles + (if u.cycles % 2 = 0 then 514 else 513) - 2 * 255) ∧
      (u.dma.index ≠ 0 → v.cycles = u.cycles + 2))

/-- While the DMA engine is active a step copies one byte: no instruction runs, no interrupt is taken, no memory but OAM changes
(R221, R318). That a step is one byte of the transfer is the model's choice (log 26). -/
def Obligations.DmaStallsCpu : Prop :=
  ∀ s : State, s.dma.active = true → s.nextInput.action = .none → dmaPageRefused s.dma.page = false →
    ∃ t, step s = .next t ∧
      t.cpu = { s.cpu with nmiPending := t.cpu.nmiPending } ∧
      t.ram = s.ram ∧ t.wram = s.wram ∧ t.prg = s.prg ∧ t.chr = s.chr ∧
      t.ppu.nametables = s.ppu.nametables ∧ t.ppu.palette = s.ppu.palette ∧
      t.ppu.oamAddr = s.ppu.oamAddr + 1 ∧ t.dma.index = s.dma.index + 1 ∧
      t.dma.active = decide (s.dma.index ≠ 0xFF) ∧
      t.ppu.oam.read s.ppu.oamAddr.toNat = s.takeInput.readValue (wordOf s.dma.index s.dma.page) ∧
      ∀ k, k ≠ s.ppu.oamAddr.toNat → t.ppu.oam.read k = s.ppu.oam.read k

/-- No step changes PRG or CHR ROM (R21, R47, R370), and only a step of an instruction changes WRAM: the interrupt entries push
to RAM (R222), the reset button keeps the memories (R226), the DMA engine writes OAM (R318), and WRAM alone of the memories
survives power (R20, R246, R389; that a power cycle is a step that keeps it is log 29). -/
def Obligations.RomNeverWritten : Prop :=
  ∀ s t : State, step s = .next t →
    t.prg = s.prg ∧ t.chr = s.chr ∧ (s.takeInput.nextMove s.nextInput ≠ .instruction → t.wram = s.wram)

/-- The machine after reset, with any image and WRAM in canonical form, meets the invariant. R37 and R386 leave most of what it
speaks of open: that vblank is 0 at place (0, 0) is log 5, that the memories list nothing is log 2, that no APU flag is set is
log 7, the DMA engine's page is log 8: the model's choice. -/
def Obligations.InvariantAtReset : Prop :=
  (∀ prg chr wram : Memory, prg.wf 0x40000 = true → chr.wf 0x20000 = true → wram.wf 0x2000 = true →
    (State.powerOn prg chr wram).inv = true) ∧ State.reset.inv = true

/-- Every step keeps the invariant: canonical memories inside their sizes, 6-bit palette, a legal place in the frame, gated IRQs -/
def Obligations.InvariantKept : Prop :=
  ∀ s t : State, s.inv = true → step s = .next t → t.inv = true

/-- A run ends in the state in which PC first equals the stated address at an instruction boundary, and in no other (R8, R390).
That a boundary inside a DMA transfer is none, and that the state a run starts in counts, are the model's choice (log 41). -/
def Obligations.RunEndsAtFirstVisit : Prop :=
  ∀ (address : Addr) (fuel : Nat) (s t : State),
    (runToEnd address fuel s = some t ↔ ∃ k, k ≤ fuel ∧ endOfRun address s k t) ∧
    (∀ k, endOfRun address s k t → t.cpu.pc = address ∧ t.dma.active = false ∧
      ∀ j u, endOfRun address s j u → j = k ∧ u = t)
end

