-- ==== Sys2Proof/Laws/Memory.lean ====
section
/-! SUPPORT. The laws of a storage: a read after a write gives the byte written, a write leaves every other index alone,
and every operation keeps the canonical form. -/

namespace Sys2Proof.Machine

@[simp] theorem Memory.read_nil (k : Nat) : Memory.read [] k = unlistedByte := rfl

theorem Memory.read_erase_same (m : Memory) (k : Nat) : (Memory.erase m k).read k = unlistedByte := by
  induction m with
  | nil => rfl
  | cons cell rest ih =>
    obtain ⟨a, b⟩ := cell
    by_cases h : a = k <;> simp [Memory.erase, Memory.read, h, ih]

theorem Memory.read_erase_other (m : Memory) {k j : Nat} (h : j ≠ k) : (Memory.erase m k).read j = m.read j := by
  induction m with
  | nil => rfl
  | cons cell rest ih =>
    obtain ⟨a, b⟩ := cell
    by_cases ha : a = k
    · subst ha
      simp [Memory.erase, Memory.read, ih, Ne.symm h]
    · simp [Memory.erase, Memory.read, ha, ih]

/-- No cell of an erased memory has the erased index. -/
theorem Memory.erase_absent (m : Memory) (k : Nat) : ∀ cell ∈ Memory.erase m k, cell.1 ≠ k := by
  induction m with
  | nil => simp [Memory.erase]
  | cons cell rest ih =>
    obtain ⟨a, b⟩ := cell
    by_cases ha : a = k
    · simpa [Memory.erase, ha] using ih
    · intro cell hc
      simp only [Memory.erase, ha, if_false, List.mem_cons] at hc
      rcases hc with rfl | hc
      · exact ha
      · exact ih cell hc

theorem Memory.read_insert_same (m : Memory) (k : Nat) (v : Byte) (absent : ∀ cell ∈ m, cell.1 ≠ k) :
    (Memory.insert m k v).read k = v := by
  induction m with
  | nil => simp [Memory.insert, Memory.read]
  | cons cell rest ih =>
    obtain ⟨a, b⟩ := cell
    by_cases hlt : k < a
    · simp [Memory.insert, hlt, Memory.read]
    · have ha : a ≠ k := absent (a, b) (by simp)
      simp [Memory.insert, hlt, Memory.read, ha, ih (fun c hc => absent c (by simp [hc]))]

theorem Memory.read_insert_other (m : Memory) {k j : Nat} (v : Byte) (h : j ≠ k) :
    (Memory.insert m k v).read j = m.read j := by
  induction m with
  | nil => simp [Memory.insert, Memory.read, Ne.symm h]
  | cons cell rest ih =>
    obtain ⟨a, b⟩ := cell
    by_cases hlt : k < a
    · simp [Memory.insert, hlt, Memory.read, Ne.symm h]
    · simp [Memory.insert, hlt, Memory.read, ih]

@[simp] theorem Memory.read_write_same (m : Memory) (k : Nat) (v : Byte) : (m.write k v).read k = v := by
  by_cases hv : v = unlistedByte
  · simp [Memory.write, hv, Memory.read_erase_same]
  · simp [Memory.write, hv, Memory.read_insert_same _ _ _ (Memory.erase_absent m k)]

theorem Memory.read_write_other (m : Memory) {k j : Nat} (v : Byte) (h : j ≠ k) : (m.write k v).read j = m.read j := by
  by_cases hv : v = unlistedByte
  · simp [Memory.write, hv, Memory.read_erase_other m h]
  · simp [Memory.write, hv, Memory.read_insert_other _ v h, Memory.read_erase_other m h]

theorem Memory.read_write (m : Memory) (k j : Nat) (v : Byte) :
    (m.write k v).read j = if j = k then v else m.read j := by
  by_cases h : j = k
  · simp [h]
  · simp [h, Memory.read_write_other m v h]

theorem Memory.wfFrom_mono {low low' size : Nat} {m : Memory} (h : low' ≤ low) (hm : Memory.wfFrom low size m = true) :
    Memory.wfFrom low' size m = true := by
  cases m with
  | nil => rfl
  | cons cell rest =>
    simp only [Memory.wfFrom, Bool.and_eq_true, decide_eq_true_eq] at hm ⊢
    exact ⟨⟨⟨by omega, hm.1.1.2⟩, hm.1.2⟩, hm.2⟩

theorem Memory.wfFrom_erase {low size : Nat} (m : Memory) (k : Nat) (hm : Memory.wfFrom low size m = true) :
    Memory.wfFrom low size (Memory.erase m k) = true := by
  induction m generalizing low with
  | nil => rfl
  | cons cell rest ih =>
    obtain ⟨a, b⟩ := cell
    simp only [Memory.wfFrom, Bool.and_eq_true, decide_eq_true_eq] at hm
    by_cases ha : a = k
    · simp only [Memory.erase, ha, if_true]
      exact Memory.wfFrom_mono (by omega) (ih hm.2)
    · simp only [Memory.erase, ha, if_false, Memory.wfFrom, Bool.and_eq_true, decide_eq_true_eq]
      exact ⟨hm.1, ih hm.2⟩

theorem Memory.wfFrom_insert {low size : Nat} (m : Memory) (k : Nat) (v : Byte) (hlow : low ≤ k) (hk : k < size)
    (hv : v ≠ unlistedByte) (absent : ∀ cell ∈ m, cell.1 ≠ k) (hm : Memory.wfFrom low size m = true) :
    Memory.wfFrom low size (Memory.insert m k v) = true := by
  induction m generalizing low with
  | nil => simp [Memory.insert, Memory.wfFrom, hlow, hk, hv]
  | cons cell rest ih =>
    obtain ⟨a, b⟩ := cell
    simp only [Memory.wfFrom, Bool.and_eq_true, decide_eq_true_eq] at hm
    by_cases hlt : k < a
    · simp only [Memory.insert, hlt, if_true, Memory.wfFrom, Bool.and_eq_true, decide_eq_true_eq]
      exact ⟨⟨⟨hlow, hk⟩, hv⟩, ⟨⟨⟨by omega, hm.1.1.2⟩, hm.1.2⟩, hm.2⟩⟩
    · have ha : a ≠ k := absent (a, b) (by simp)
      simp only [Memory.insert, hlt, if_false, Memory.wfFrom, Bool.and_eq_true, decide_eq_true_eq]
      exact ⟨hm.1, ih (by omega) (fun c hc => absent c (by simp [hc])) hm.2⟩

/-- A write inside a storage keeps its canonical form. -/
theorem Memory.wf_write {size : Nat} {m : Memory} (k : Nat) (v : Byte) (hk : k < size) (hm : m.wf size = true) :
    (m.write k v).wf size = true := by
  unfold Memory.write
  split
  · exact Memory.wfFrom_erase m k hm
  · next hv =>
    exact Memory.wfFrom_insert _ k v (Nat.zero_le k) hk hv (Memory.erase_absent m k) (Memory.wfFrom_erase m k hm)

@[simp] theorem Memory.wf_nil (size : Nat) : Memory.wf size [] = true := rfl

/-- Below its first possible cell a storage in canonical form lists nothing. -/
theorem Memory.read_below {low size : Nat} {m : Memory} (hm : Memory.wfFrom low size m = true) {k : Nat} (hk : k < low) :
    m.read k = unlistedByte := by
  induction m generalizing low with
  | nil => rfl
  | cons cell rest ih =>
    obtain ⟨a, b⟩ := cell
    simp only [Memory.wfFrom, Bool.and_eq_true, decide_eq_true_eq] at hm
    have ha : a ≠ k := by omega
    simp only [Memory.read, ha, if_false]
    exact ih hm.2 (by omega)

/-- Outside its size a storage in canonical form lists nothing. -/
theorem Memory.read_above {low size : Nat} {m : Memory} (hm : Memory.wfFrom low size m = true) {k : Nat}
    (hk : size ≤ k) : m.read k = unlistedByte := by
  induction m generalizing low with
  | nil => rfl
  | cons cell rest ih =>
    obtain ⟨a, b⟩ := cell
    simp only [Memory.wfFrom, Bool.and_eq_true, decide_eq_true_eq] at hm
    have ha : a ≠ k := by omega
    simp only [Memory.read, ha, if_false]
    exact ih hm.2

/-- A storage filled from bytes is in canonical form. -/
theorem Memory.wfFrom_ofBytes (bytes : List Byte) (low size : Nat) (h : low + bytes.length ≤ size) :
    Memory.wfFrom low size (Memory.ofBytes low bytes) = true := by
  induction bytes generalizing low with
  | nil => rfl
  | cons b rest ih =>
    have hrest : Memory.wfFrom (low + 1) size (Memory.ofBytes (low + 1) rest) = true :=
      ih (low + 1) (by simp only [List.length_cons] at h; omega)
    by_cases hb : b = unlistedByte
    · simp only [Memory.ofBytes, hb, if_true]
      exact Memory.wfFrom_mono (by omega) hrest
    · simp only [Memory.ofBytes, hb, if_false, Memory.wfFrom, Bool.and_eq_true, decide_eq_true_eq]
      simp only [List.length_cons] at h
      exact ⟨⟨⟨Nat.le_refl _, by omega⟩, hb⟩, hrest⟩

theorem Memory.read_ofBytes (bytes : List Byte) (start k : Nat) :
    (Memory.ofBytes start bytes).read (start + k) = bytes.getD k unlistedByte := by
  induction bytes generalizing start k with
  | nil => simp [Memory.ofBytes]
  | cons b rest ih =>
    have hw : Memory.wfFrom (start + 1) (start + 1 + rest.length) (Memory.ofBytes (start + 1) rest) = true :=
      Memory.wfFrom_ofBytes rest (start + 1) _ (Nat.le_refl _)
    cases k with
    | zero =>
      by_cases hb : b = unlistedByte
      · simp [Memory.ofBytes, hb, Memory.read_below hw]
      · simp [Memory.ofBytes, hb, Memory.read]
    | succ k =>
      have hk := ih (start + 1) k
      rw [show start + 1 + k = start + (k + 1) by omega] at hk
      by_cases hb : b = unlistedByte
      · simp [Memory.ofBytes, hb, hk]
      · simp [Memory.ofBytes, hb, Memory.read, hk]

end Sys2Proof.Machine
end

