-- ==== Sys2Proof/Laws/Mmc3.lean ====
section
/-! SUPPORT. What the MMC3's operations do to its registers, and the ranges of its offsets. -/

namespace Sys2Proof.Machine

/-- One clock changes the counter, the reload flag and the request, and nothing else. -/
theorem Mmc3.clock_eq (m : Mmc3) :
    m.clock = { m with irqCounter := m.clock.irqCounter, irqReload := m.clock.irqReload, irqPending := m.clock.irqPending } :=
  rfl

/-- Some clocks change the counter, the reload flag and the request, and nothing else. -/
theorem Mmc3.clockTimes_eq (k : Nat) (m : Mmc3) :
    Mmc3.clockTimes k m = { m with
      irqCounter := (Mmc3.clockTimes k m).irqCounter
      irqReload := (Mmc3.clockTimes k m).irqReload
      irqPending := (Mmc3.clockTimes k m).irqPending } := by
  induction k generalizing m with
  | zero => rfl
  | succ k ih =>
    have h := ih m.clock
    simp only [Mmc3.clockTimes]
    conv_lhs => rw [h]
    rfl

/-- Clocks never clear a request, and never raise one while the counter's IRQ is disabled. -/
theorem Mmc3.clockTimes_irqPending (k : Nat) (m : Mmc3) :
    (Mmc3.clockTimes k m).irqPending = (m.irqPending || (m.irqEnable && (Mmc3.clockTimes k m).irqPending)) := by
  induction k generalizing m with
  | zero => simp [Mmc3.clockTimes]
  | succ k ih =>
    have h := ih m.clock
    simp only [Mmc3.clockTimes]
    rw [show m.clock.irqEnable = m.irqEnable from rfl] at h
    generalize (Mmc3.clockTimes k m.clock).irqPending = x at h ⊢
    rw [show m.clock.irqPending = (m.irqPending || (m.irqEnable && decide (m.nextCounter = 0))) from rfl] at h
    revert h
    cases m.irqPending <;> cases m.irqEnable <;> cases x <;> simp

/-- `clocks` is `clockTimes`. -/
theorem Mmc3.clocks_eq (m : Mmc3) (k : Nat) : m.clocks k = Mmc3.clockTimes k m := by
  conv_rhs => rw [Mmc3.clockTimes_eq]
  unfold Mmc3.clocks
  rw [← Mmc3.clockTimes_irqPending]

theorem Mmc3.prgBank_lt (m : Mmc3) (a : Addr) : m.prgBank a < 32 := by
  have mask : ∀ b : Byte, (b &&& 0x1F).toNat < 32 := by decide
  unfold Mmc3.prgBank
  split <;> first | exact mask _ | decide

/-- Every PRG offset is inside PRG ROM (R338). -/
theorem Mmc3.prgOffset_lt (m : Mmc3) (a : Addr) : m.prgOffset a < Config.prgSize := by
  have h := m.prgBank_lt a
  unfold Mmc3.prgOffset Config.prgSize
  omega

/-- $E000-$FFFF shows the last 8KB bank whatever state the MMC3 is in (R339). -/
theorem Mmc3.prgOffset_fixed (m : Mmc3) {a : Addr} (h : 0xE000 ≤ a.toNat) : m.prgOffset a = 0x3E000 + (a.toNat - 0xE000) := by
  have hlt := a.isLt
  have hw : a.toNat / 0x2000 % 4 = 3 := by omega
  unfold Mmc3.prgOffset Mmc3.prgBank
  rw [hw]
  simp only
  omega

/-- Every CHR offset is inside CHR ROM (R342). -/
theorem Mmc3.chrOffset_lt (m : Mmc3) (a : PpuAddr) : m.chrOffset a < Config.chrSize := by
  have mask : ∀ b : Byte, (b &&& 0x7F).toNat < 128 := by decide
  have h := mask (m.chrUnit ((m.chrAddr a).toNat / 0x400))
  unfold Mmc3.chrOffset Config.chrSize
  omega

theorem byte_mask_1F : ∀ b : Byte, (b &&& 0x1F).toNat = b.toNat % 32 := by decide

theorem byte_mask_07 : ∀ b : Byte, (b &&& 0x07).toNat = b.toNat % 8 := by decide

theorem byte_mask_7F : ∀ b : Byte, (b &&& 0x7F).toNat = b.toNat % 128 := by decide

theorem byte_even : ∀ b : Byte, (b &&& 0xFE).toNat = b.toNat / 2 * 2 := by decide

theorem byte_odd : ∀ b : Byte, ((b &&& 0xFE) ||| 1).toNat = b.toNat / 2 * 2 + 1 := by decide

/-- The bank a window shows, window by window (R338). -/
theorem Mmc3.prgBank_eq (m : Mmc3) {a : Addr} (h : 0x8000 ≤ a.toNat) :
    m.prgBank a =
      if a.toNat < 0xA000 then (if m.bankSelect.getLsbD 7 then 30 else m.r6.toNat % 32)
      else if a.toNat < 0xC000 then m.r7.toNat % 32
      else if a.toNat < 0xE000 then (if m.bankSelect.getLsbD 7 then m.r6.toNat % 32 else 30)
      else 31 := by
  have hlt := a.isLt
  unfold Mmc3.prgBank
  rw [byte_mask_1F, byte_mask_1F]
  by_cases h1 : a.toNat < 0xA000
  · rw [show a.toNat / 0x2000 % 4 = 0 by omega, if_pos h1]
    cases m.bankSelect.getLsbD 7 <;> rfl
  by_cases h2 : a.toNat < 0xC000
  · rw [show a.toNat / 0x2000 % 4 = 1 by omega, if_neg h1, if_pos h2]
    cases m.bankSelect.getLsbD 7 <;> rfl
  by_cases h3 : a.toNat < 0xE000
  · rw [show a.toNat / 0x2000 % 4 = 2 by omega, if_neg h1, if_neg h2, if_pos h3]
    cases m.bankSelect.getLsbD 7 <;> rfl
  · rw [show a.toNat / 0x2000 % 4 = 3 by omega, if_neg h1, if_neg h2, if_neg h3]
    cases m.bankSelect.getLsbD 7 <;> rfl

/-- CHR A12 inversion swaps the two 4KB halves (R342). -/
theorem Mmc3.chrAddr_toNat (m : Mmc3) {a : PpuAddr} (h : a.toNat < 0x2000) :
    (m.chrAddr a).toNat = if m.bankSelect.getLsbD 6 then (a.toNat + 0x1000) % 0x2000 else a.toNat := by
  unfold Mmc3.chrAddr
  split
  · rw [BitVec.toNat_xor, show (0x1000 : PpuAddr).toNat = 2 ^ 12 from rfl]
    have hd := Nat.xor_div_two_pow (a := a.toNat) (b := 2 ^ 12) (n := 12)
    have hm := Nat.xor_mod_two_pow (a := a.toNat) (b := 2 ^ 12) (n := 12)
    rw [Nat.mod_self, Nat.xor_zero] at hm
    rw [Nat.div_self (by decide)] at hd
    have hq : a.toNat / 2 ^ 12 = 0 ∨ a.toNat / 2 ^ 12 = 1 := by omega
    rcases hq with hq | hq <;> rw [hq] at hd
    · rw [show 0 ^^^ 1 = 1 from rfl] at hd
      omega
    · rw [show 1 ^^^ 1 = 0 from rfl] at hd
      omega
  · rfl

/-- The 1KB unit of a slot, as arithmetic (R342). -/
theorem Mmc3.chrUnit_toNat (m : Mmc3) {b : Nat} (h : b < 0x2000) :
    (m.chrUnit (b / 0x400)).toNat =
      if b < 0x400 then m.r0.toNat / 2 * 2 else if b < 0x800 then m.r0.toNat / 2 * 2 + 1
      else if b < 0xC00 then m.r1.toNat / 2 * 2 else if b < 0x1000 then m.r1.toNat / 2 * 2 + 1
      else if b < 0x1400 then m.r2.toNat else if b < 0x1800 then m.r3.toNat
      else if b < 0x1C00 then m.r4.toNat else m.r5.toNat := by
  have hslot : b / 0x400 < 8 := by omega
  unfold Mmc3.chrUnit
  generalize hk : b / 0x400 = slot at hslot ⊢
  interval_cases slot <;> simp only [byte_even, byte_odd] <;> split_ifs <;> first | rfl | omega

end Sys2Proof.Machine
end

