-- ==== Sys2Proof/Laws/State.lean ====
section
/-! SUPPORT. One lemma per field per update of the state, each true by `rfl`, so that no proof unfolds a record update. -/

namespace Sys2Proof.Machine

section setA
variable (s : State) (b : Byte)
@[simp] theorem State.setA_a : (s.setA b).cpu.a = b := rfl
@[simp] theorem State.setA_x : (s.setA b).cpu.x = s.cpu.x := rfl
@[simp] theorem State.setA_y : (s.setA b).cpu.y = s.cpu.y := rfl
@[simp] theorem State.setA_sp : (s.setA b).cpu.sp = s.cpu.sp := rfl
@[simp] theorem State.setA_pc : (s.setA b).cpu.pc = s.cpu.pc := rfl
@[simp] theorem State.setA_n : (s.setA b).cpu.n = s.cpu.n := rfl
@[simp] theorem State.setA_v : (s.setA b).cpu.v = s.cpu.v := rfl
@[simp] theorem State.setA_d : (s.setA b).cpu.d = s.cpu.d := rfl
@[simp] theorem State.setA_i : (s.setA b).cpu.i = s.cpu.i := rfl
@[simp] theorem State.setA_z : (s.setA b).cpu.z = s.cpu.z := rfl
@[simp] theorem State.setA_c : (s.setA b).cpu.c = s.cpu.c := rfl
@[simp] theorem State.setA_nmiPending : (s.setA b).cpu.nmiPending = s.cpu.nmiPending := rfl
@[simp] theorem State.setA_ppu : (s.setA b).ppu = s.ppu := rfl
@[simp] theorem State.setA_mmc3 : (s.setA b).mmc3 = s.mmc3 := rfl
@[simp] theorem State.setA_apu : (s.setA b).apu = s.apu := rfl
@[simp] theorem State.setA_pads : (s.setA b).pads = s.pads := rfl
@[simp] theorem State.setA_dma : (s.setA b).dma = s.dma := rfl
@[simp] theorem State.setA_ram : (s.setA b).ram = s.ram := rfl
@[simp] theorem State.setA_wram : (s.setA b).wram = s.wram := rfl
@[simp] theorem State.setA_prg : (s.setA b).prg = s.prg := rfl
@[simp] theorem State.setA_chr : (s.setA b).chr = s.chr := rfl
@[simp] theorem State.setA_fresh : (s.setA b).fresh = s.fresh := rfl
@[simp] theorem State.setA_timed : (s.setA b).timed = s.timed := rfl
@[simp] theorem State.setA_cycles : (s.setA b).cycles = s.cycles := rfl
@[simp] theorem State.setA_inputs : (s.setA b).inputs = s.inputs := rfl
end setA

section setX
variable (s : State) (b : Byte)
@[simp] theorem State.setX_a : (s.setX b).cpu.a = s.cpu.a := rfl
@[simp] theorem State.setX_x : (s.setX b).cpu.x = b := rfl
@[simp] theorem State.setX_y : (s.setX b).cpu.y = s.cpu.y := rfl
@[simp] theorem State.setX_sp : (s.setX b).cpu.sp = s.cpu.sp := rfl
@[simp] theorem State.setX_pc : (s.setX b).cpu.pc = s.cpu.pc := rfl
@[simp] theorem State.setX_n : (s.setX b).cpu.n = s.cpu.n := rfl
@[simp] theorem State.setX_v : (s.setX b).cpu.v = s.cpu.v := rfl
@[simp] theorem State.setX_d : (s.setX b).cpu.d = s.cpu.d := rfl
@[simp] theorem State.setX_i : (s.setX b).cpu.i = s.cpu.i := rfl
@[simp] theorem State.setX_z : (s.setX b).cpu.z = s.cpu.z := rfl
@[simp] theorem State.setX_c : (s.setX b).cpu.c = s.cpu.c := rfl
@[simp] theorem State.setX_nmiPending : (s.setX b).cpu.nmiPending = s.cpu.nmiPending := rfl
@[simp] theorem State.setX_ppu : (s.setX b).ppu = s.ppu := rfl
@[simp] theorem State.setX_mmc3 : (s.setX b).mmc3 = s.mmc3 := rfl
@[simp] theorem State.setX_apu : (s.setX b).apu = s.apu := rfl
@[simp] theorem State.setX_pads : (s.setX b).pads = s.pads := rfl
@[simp] theorem State.setX_dma : (s.setX b).dma = s.dma := rfl
@[simp] theorem State.setX_ram : (s.setX b).ram = s.ram := rfl
@[simp] theorem State.setX_wram : (s.setX b).wram = s.wram := rfl
@[simp] theorem State.setX_prg : (s.setX b).prg = s.prg := rfl
@[simp] theorem State.setX_chr : (s.setX b).chr = s.chr := rfl
@[simp] theorem State.setX_fresh : (s.setX b).fresh = s.fresh := rfl
@[simp] theorem State.setX_timed : (s.setX b).timed = s.timed := rfl
@[simp] theorem State.setX_cycles : (s.setX b).cycles = s.cycles := rfl
@[simp] theorem State.setX_inputs : (s.setX b).inputs = s.inputs := rfl
end setX

section setY
variable (s : State) (b : Byte)
@[simp] theorem State.setY_a : (s.setY b).cpu.a = s.cpu.a := rfl
@[simp] theorem State.setY_x : (s.setY b).cpu.x = s.cpu.x := rfl
@[simp] theorem State.setY_y : (s.setY b).cpu.y = b := rfl
@[simp] theorem State.setY_sp : (s.setY b).cpu.sp = s.cpu.sp := rfl
@[simp] theorem State.setY_pc : (s.setY b).cpu.pc = s.cpu.pc := rfl
@[simp] theorem State.setY_n : (s.setY b).cpu.n = s.cpu.n := rfl
@[simp] theorem State.setY_v : (s.setY b).cpu.v = s.cpu.v := rfl
@[simp] theorem State.setY_d : (s.setY b).cpu.d = s.cpu.d := rfl
@[simp] theorem State.setY_i : (s.setY b).cpu.i = s.cpu.i := rfl
@[simp] theorem State.setY_z : (s.setY b).cpu.z = s.cpu.z := rfl
@[simp] theorem State.setY_c : (s.setY b).cpu.c = s.cpu.c := rfl
@[simp] theorem State.setY_nmiPending : (s.setY b).cpu.nmiPending = s.cpu.nmiPending := rfl
@[simp] theorem State.setY_ppu : (s.setY b).ppu = s.ppu := rfl
@[simp] theorem State.setY_mmc3 : (s.setY b).mmc3 = s.mmc3 := rfl
@[simp] theorem State.setY_apu : (s.setY b).apu = s.apu := rfl
@[simp] theorem State.setY_pads : (s.setY b).pads = s.pads := rfl
@[simp] theorem State.setY_dma : (s.setY b).dma = s.dma := rfl
@[simp] theorem State.setY_ram : (s.setY b).ram = s.ram := rfl
@[simp] theorem State.setY_wram : (s.setY b).wram = s.wram := rfl
@[simp] theorem State.setY_prg : (s.setY b).prg = s.prg := rfl
@[simp] theorem State.setY_chr : (s.setY b).chr = s.chr := rfl
@[simp] theorem State.setY_fresh : (s.setY b).fresh = s.fresh := rfl
@[simp] theorem State.setY_timed : (s.setY b).timed = s.timed := rfl
@[simp] theorem State.setY_cycles : (s.setY b).cycles = s.cycles := rfl
@[simp] theorem State.setY_inputs : (s.setY b).inputs = s.inputs := rfl
end setY

section setSp
variable (s : State) (b : Byte)
@[simp] theorem State.setSp_a : (s.setSp b).cpu.a = s.cpu.a := rfl
@[simp] theorem State.setSp_x : (s.setSp b).cpu.x = s.cpu.x := rfl
@[simp] theorem State.setSp_y : (s.setSp b).cpu.y = s.cpu.y := rfl
@[simp] theorem State.setSp_sp : (s.setSp b).cpu.sp = b := rfl
@[simp] theorem State.setSp_pc : (s.setSp b).cpu.pc = s.cpu.pc := rfl
@[simp] theorem State.setSp_n : (s.setSp b).cpu.n = s.cpu.n := rfl
@[simp] theorem State.setSp_v : (s.setSp b).cpu.v = s.cpu.v := rfl
@[simp] theorem State.setSp_d : (s.setSp b).cpu.d = s.cpu.d := rfl
@[simp] theorem State.setSp_i : (s.setSp b).cpu.i = s.cpu.i := rfl
@[simp] theorem State.setSp_z : (s.setSp b).cpu.z = s.cpu.z := rfl
@[simp] theorem State.setSp_c : (s.setSp b).cpu.c = s.cpu.c := rfl
@[simp] theorem State.setSp_nmiPending : (s.setSp b).cpu.nmiPending = s.cpu.nmiPending := rfl
@[simp] theorem State.setSp_ppu : (s.setSp b).ppu = s.ppu := rfl
@[simp] theorem State.setSp_mmc3 : (s.setSp b).mmc3 = s.mmc3 := rfl
@[simp] theorem State.setSp_apu : (s.setSp b).apu = s.apu := rfl
@[simp] theorem State.setSp_pads : (s.setSp b).pads = s.pads := rfl
@[simp] theorem State.setSp_dma : (s.setSp b).dma = s.dma := rfl
@[simp] theorem State.setSp_ram : (s.setSp b).ram = s.ram := rfl
@[simp] theorem State.setSp_wram : (s.setSp b).wram = s.wram := rfl
@[simp] theorem State.setSp_prg : (s.setSp b).prg = s.prg := rfl
@[simp] theorem State.setSp_chr : (s.setSp b).chr = s.chr := rfl
@[simp] theorem State.setSp_fresh : (s.setSp b).fresh = s.fresh := rfl
@[simp] theorem State.setSp_timed : (s.setSp b).timed = s.timed := rfl
@[simp] theorem State.setSp_cycles : (s.setSp b).cycles = s.cycles := rfl
@[simp] theorem State.setSp_inputs : (s.setSp b).inputs = s.inputs := rfl
end setSp

section setPc
variable (s : State) (w : Addr)
@[simp] theorem State.setPc_a : (s.setPc w).cpu.a = s.cpu.a := rfl
@[simp] theorem State.setPc_x : (s.setPc w).cpu.x = s.cpu.x := rfl
@[simp] theorem State.setPc_y : (s.setPc w).cpu.y = s.cpu.y := rfl
@[simp] theorem State.setPc_sp : (s.setPc w).cpu.sp = s.cpu.sp := rfl
@[simp] theorem State.setPc_pc : (s.setPc w).cpu.pc = w := rfl
@[simp] theorem State.setPc_n : (s.setPc w).cpu.n = s.cpu.n := rfl
@[simp] theorem State.setPc_v : (s.setPc w).cpu.v = s.cpu.v := rfl
@[simp] theorem State.setPc_d : (s.setPc w).cpu.d = s.cpu.d := rfl
@[simp] theorem State.setPc_i : (s.setPc w).cpu.i = s.cpu.i := rfl
@[simp] theorem State.setPc_z : (s.setPc w).cpu.z = s.cpu.z := rfl
@[simp] theorem State.setPc_c : (s.setPc w).cpu.c = s.cpu.c := rfl
@[simp] theorem State.setPc_nmiPending : (s.setPc w).cpu.nmiPending = s.cpu.nmiPending := rfl
@[simp] theorem State.setPc_ppu : (s.setPc w).ppu = s.ppu := rfl
@[simp] theorem State.setPc_mmc3 : (s.setPc w).mmc3 = s.mmc3 := rfl
@[simp] theorem State.setPc_apu : (s.setPc w).apu = s.apu := rfl
@[simp] theorem State.setPc_pads : (s.setPc w).pads = s.pads := rfl
@[simp] theorem State.setPc_dma : (s.setPc w).dma = s.dma := rfl
@[simp] theorem State.setPc_ram : (s.setPc w).ram = s.ram := rfl
@[simp] theorem State.setPc_wram : (s.setPc w).wram = s.wram := rfl
@[simp] theorem State.setPc_prg : (s.setPc w).prg = s.prg := rfl
@[simp] theorem State.setPc_chr : (s.setPc w).chr = s.chr := rfl
@[simp] theorem State.setPc_fresh : (s.setPc w).fresh = s.fresh := rfl
@[simp] theorem State.setPc_timed : (s.setPc w).timed = s.timed := rfl
@[simp] theorem State.setPc_cycles : (s.setPc w).cycles = s.cycles := rfl
@[simp] theorem State.setPc_inputs : (s.setPc w).inputs = s.inputs := rfl
end setPc

section setN
variable (s : State) (b : Bool)
@[simp] theorem State.setN_a : (s.setN b).cpu.a = s.cpu.a := rfl
@[simp] theorem State.setN_x : (s.setN b).cpu.x = s.cpu.x := rfl
@[simp] theorem State.setN_y : (s.setN b).cpu.y = s.cpu.y := rfl
@[simp] theorem State.setN_sp : (s.setN b).cpu.sp = s.cpu.sp := rfl
@[simp] theorem State.setN_pc : (s.setN b).cpu.pc = s.cpu.pc := rfl
@[simp] theorem State.setN_n : (s.setN b).cpu.n = b := rfl
@[simp] theorem State.setN_v : (s.setN b).cpu.v = s.cpu.v := rfl
@[simp] theorem State.setN_d : (s.setN b).cpu.d = s.cpu.d := rfl
@[simp] theorem State.setN_i : (s.setN b).cpu.i = s.cpu.i := rfl
@[simp] theorem State.setN_z : (s.setN b).cpu.z = s.cpu.z := rfl
@[simp] theorem State.setN_c : (s.setN b).cpu.c = s.cpu.c := rfl
@[simp] theorem State.setN_nmiPending : (s.setN b).cpu.nmiPending = s.cpu.nmiPending := rfl
@[simp] theorem State.setN_ppu : (s.setN b).ppu = s.ppu := rfl
@[simp] theorem State.setN_mmc3 : (s.setN b).mmc3 = s.mmc3 := rfl
@[simp] theorem State.setN_apu : (s.setN b).apu = s.apu := rfl
@[simp] theorem State.setN_pads : (s.setN b).pads = s.pads := rfl
@[simp] theorem State.setN_dma : (s.setN b).dma = s.dma := rfl
@[simp] theorem State.setN_ram : (s.setN b).ram = s.ram := rfl
@[simp] theorem State.setN_wram : (s.setN b).wram = s.wram := rfl
@[simp] theorem State.setN_prg : (s.setN b).prg = s.prg := rfl
@[simp] theorem State.setN_chr : (s.setN b).chr = s.chr := rfl
@[simp] theorem State.setN_fresh : (s.setN b).fresh = s.fresh := rfl
@[simp] theorem State.setN_timed : (s.setN b).timed = s.timed := rfl
@[simp] theorem State.setN_cycles : (s.setN b).cycles = s.cycles := rfl
@[simp] theorem State.setN_inputs : (s.setN b).inputs = s.inputs := rfl
end setN

section setV
variable (s : State) (b : Bool)
@[simp] theorem State.setV_a : (s.setV b).cpu.a = s.cpu.a := rfl
@[simp] theorem State.setV_x : (s.setV b).cpu.x = s.cpu.x := rfl
@[simp] theorem State.setV_y : (s.setV b).cpu.y = s.cpu.y := rfl
@[simp] theorem State.setV_sp : (s.setV b).cpu.sp = s.cpu.sp := rfl
@[simp] theorem State.setV_pc : (s.setV b).cpu.pc = s.cpu.pc := rfl
@[simp] theorem State.setV_n : (s.setV b).cpu.n = s.cpu.n := rfl
@[simp] theorem State.setV_v : (s.setV b).cpu.v = b := rfl
@[simp] theorem State.setV_d : (s.setV b).cpu.d = s.cpu.d := rfl
@[simp] theorem State.setV_i : (s.setV b).cpu.i = s.cpu.i := rfl
@[simp] theorem State.setV_z : (s.setV b).cpu.z = s.cpu.z := rfl
@[simp] theorem State.setV_c : (s.setV b).cpu.c = s.cpu.c := rfl
@[simp] theorem State.setV_nmiPending : (s.setV b).cpu.nmiPending = s.cpu.nmiPending := rfl
@[simp] theorem State.setV_ppu : (s.setV b).ppu = s.ppu := rfl
@[simp] theorem State.setV_mmc3 : (s.setV b).mmc3 = s.mmc3 := rfl
@[simp] theorem State.setV_apu : (s.setV b).apu = s.apu := rfl
@[simp] theorem State.setV_pads : (s.setV b).pads = s.pads := rfl
@[simp] theorem State.setV_dma : (s.setV b).dma = s.dma := rfl
@[simp] theorem State.setV_ram : (s.setV b).ram = s.ram := rfl
@[simp] theorem State.setV_wram : (s.setV b).wram = s.wram := rfl
@[simp] theorem State.setV_prg : (s.setV b).prg = s.prg := rfl
@[simp] theorem State.setV_chr : (s.setV b).chr = s.chr := rfl
@[simp] theorem State.setV_fresh : (s.setV b).fresh = s.fresh := rfl
@[simp] theorem State.setV_timed : (s.setV b).timed = s.timed := rfl
@[simp] theorem State.setV_cycles : (s.setV b).cycles = s.cycles := rfl
@[simp] theorem State.setV_inputs : (s.setV b).inputs = s.inputs := rfl
end setV

section setD
variable (s : State) (b : Bool)
@[simp] theorem State.setD_a : (s.setD b).cpu.a = s.cpu.a := rfl
@[simp] theorem State.setD_x : (s.setD b).cpu.x = s.cpu.x := rfl
@[simp] theorem State.setD_y : (s.setD b).cpu.y = s.cpu.y := rfl
@[simp] theorem State.setD_sp : (s.setD b).cpu.sp = s.cpu.sp := rfl
@[simp] theorem State.setD_pc : (s.setD b).cpu.pc = s.cpu.pc := rfl
@[simp] theorem State.setD_n : (s.setD b).cpu.n = s.cpu.n := rfl
@[simp] theorem State.setD_v : (s.setD b).cpu.v = s.cpu.v := rfl
@[simp] theorem State.setD_d : (s.setD b).cpu.d = b := rfl
@[simp] theorem State.setD_i : (s.setD b).cpu.i = s.cpu.i := rfl
@[simp] theorem State.setD_z : (s.setD b).cpu.z = s.cpu.z := rfl
@[simp] theorem State.setD_c : (s.setD b).cpu.c = s.cpu.c := rfl
@[simp] theorem State.setD_nmiPending : (s.setD b).cpu.nmiPending = s.cpu.nmiPending := rfl
@[simp] theorem State.setD_ppu : (s.setD b).ppu = s.ppu := rfl
@[simp] theorem State.setD_mmc3 : (s.setD b).mmc3 = s.mmc3 := rfl
@[simp] theorem State.setD_apu : (s.setD b).apu = s.apu := rfl
@[simp] theorem State.setD_pads : (s.setD b).pads = s.pads := rfl
@[simp] theorem State.setD_dma : (s.setD b).dma = s.dma := rfl
@[simp] theorem State.setD_ram : (s.setD b).ram = s.ram := rfl
@[simp] theorem State.setD_wram : (s.setD b).wram = s.wram := rfl
@[simp] theorem State.setD_prg : (s.setD b).prg = s.prg := rfl
@[simp] theorem State.setD_chr : (s.setD b).chr = s.chr := rfl
@[simp] theorem State.setD_fresh : (s.setD b).fresh = s.fresh := rfl
@[simp] theorem State.setD_timed : (s.setD b).timed = s.timed := rfl
@[simp] theorem State.setD_cycles : (s.setD b).cycles = s.cycles := rfl
@[simp] theorem State.setD_inputs : (s.setD b).inputs = s.inputs := rfl
end setD

section setI
variable (s : State) (b : Bool)
@[simp] theorem State.setI_a : (s.setI b).cpu.a = s.cpu.a := rfl
@[simp] theorem State.setI_x : (s.setI b).cpu.x = s.cpu.x := rfl
@[simp] theorem State.setI_y : (s.setI b).cpu.y = s.cpu.y := rfl
@[simp] theorem State.setI_sp : (s.setI b).cpu.sp = s.cpu.sp := rfl
@[simp] theorem State.setI_pc : (s.setI b).cpu.pc = s.cpu.pc := rfl
@[simp] theorem State.setI_n : (s.setI b).cpu.n = s.cpu.n := rfl
@[simp] theorem State.setI_v : (s.setI b).cpu.v = s.cpu.v := rfl
@[simp] theorem State.setI_d : (s.setI b).cpu.d = s.cpu.d := rfl
@[simp] theorem State.setI_i : (s.setI b).cpu.i = b := rfl
@[simp] theorem State.setI_z : (s.setI b).cpu.z = s.cpu.z := rfl
@[simp] theorem State.setI_c : (s.setI b).cpu.c = s.cpu.c := rfl
@[simp] theorem State.setI_nmiPending : (s.setI b).cpu.nmiPending = s.cpu.nmiPending := rfl
@[simp] theorem State.setI_ppu : (s.setI b).ppu = s.ppu := rfl
@[simp] theorem State.setI_mmc3 : (s.setI b).mmc3 = s.mmc3 := rfl
@[simp] theorem State.setI_apu : (s.setI b).apu = s.apu := rfl
@[simp] theorem State.setI_pads : (s.setI b).pads = s.pads := rfl
@[simp] theorem State.setI_dma : (s.setI b).dma = s.dma := rfl
@[simp] theorem State.setI_ram : (s.setI b).ram = s.ram := rfl
@[simp] theorem State.setI_wram : (s.setI b).wram = s.wram := rfl
@[simp] theorem State.setI_prg : (s.setI b).prg = s.prg := rfl
@[simp] theorem State.setI_chr : (s.setI b).chr = s.chr := rfl
@[simp] theorem State.setI_fresh : (s.setI b).fresh = s.fresh := rfl
@[simp] theorem State.setI_timed : (s.setI b).timed = s.timed := rfl
@[simp] theorem State.setI_cycles : (s.setI b).cycles = s.cycles := rfl
@[simp] theorem State.setI_inputs : (s.setI b).inputs = s.inputs := rfl
end setI

section setZ
variable (s : State) (b : Bool)
@[simp] theorem State.setZ_a : (s.setZ b).cpu.a = s.cpu.a := rfl
@[simp] theorem State.setZ_x : (s.setZ b).cpu.x = s.cpu.x := rfl
@[simp] theorem State.setZ_y : (s.setZ b).cpu.y = s.cpu.y := rfl
@[simp] theorem State.setZ_sp : (s.setZ b).cpu.sp = s.cpu.sp := rfl
@[simp] theorem State.setZ_pc : (s.setZ b).cpu.pc = s.cpu.pc := rfl
@[simp] theorem State.setZ_n : (s.setZ b).cpu.n = s.cpu.n := rfl
@[simp] theorem State.setZ_v : (s.setZ b).cpu.v = s.cpu.v := rfl
@[simp] theorem State.setZ_d : (s.setZ b).cpu.d = s.cpu.d := rfl
@[simp] theorem State.setZ_i : (s.setZ b).cpu.i = s.cpu.i := rfl
@[simp] theorem State.setZ_z : (s.setZ b).cpu.z = b := rfl
@[simp] theorem State.setZ_c : (s.setZ b).cpu.c = s.cpu.c := rfl
@[simp] theorem State.setZ_nmiPending : (s.setZ b).cpu.nmiPending = s.cpu.nmiPending := rfl
@[simp] theorem State.setZ_ppu : (s.setZ b).ppu = s.ppu := rfl
@[simp] theorem State.setZ_mmc3 : (s.setZ b).mmc3 = s.mmc3 := rfl
@[simp] theorem State.setZ_apu : (s.setZ b).apu = s.apu := rfl
@[simp] theorem State.setZ_pads : (s.setZ b).pads = s.pads := rfl
@[simp] theorem State.setZ_dma : (s.setZ b).dma = s.dma := rfl
@[simp] theorem State.setZ_ram : (s.setZ b).ram = s.ram := rfl
@[simp] theorem State.setZ_wram : (s.setZ b).wram = s.wram := rfl
@[simp] theorem State.setZ_prg : (s.setZ b).prg = s.prg := rfl
@[simp] theorem State.setZ_chr : (s.setZ b).chr = s.chr := rfl
@[simp] theorem State.setZ_fresh : (s.setZ b).fresh = s.fresh := rfl
@[simp] theorem State.setZ_timed : (s.setZ b).timed = s.timed := rfl
@[simp] theorem State.setZ_cycles : (s.setZ b).cycles = s.cycles := rfl
@[simp] theorem State.setZ_inputs : (s.setZ b).inputs = s.inputs := rfl
end setZ

section setC
variable (s : State) (b : Bool)
@[simp] theorem State.setC_a : (s.setC b).cpu.a = s.cpu.a := rfl
@[simp] theorem State.setC_x : (s.setC b).cpu.x = s.cpu.x := rfl
@[simp] theorem State.setC_y : (s.setC b).cpu.y = s.cpu.y := rfl
@[simp] theorem State.setC_sp : (s.setC b).cpu.sp = s.cpu.sp := rfl
@[simp] theorem State.setC_pc : (s.setC b).cpu.pc = s.cpu.pc := rfl
@[simp] theorem State.setC_n : (s.setC b).cpu.n = s.cpu.n := rfl
@[simp] theorem State.setC_v : (s.setC b).cpu.v = s.cpu.v := rfl
@[simp] theorem State.setC_d : (s.setC b).cpu.d = s.cpu.d := rfl
@[simp] theorem State.setC_i : (s.setC b).cpu.i = s.cpu.i := rfl
@[simp] theorem State.setC_z : (s.setC b).cpu.z = s.cpu.z := rfl
@[simp] theorem State.setC_c : (s.setC b).cpu.c = b := rfl
@[simp] theorem State.setC_nmiPending : (s.setC b).cpu.nmiPending = s.cpu.nmiPending := rfl
@[simp] theorem State.setC_ppu : (s.setC b).ppu = s.ppu := rfl
@[simp] theorem State.setC_mmc3 : (s.setC b).mmc3 = s.mmc3 := rfl
@[simp] theorem State.setC_apu : (s.setC b).apu = s.apu := rfl
@[simp] theorem State.setC_pads : (s.setC b).pads = s.pads := rfl
@[simp] theorem State.setC_dma : (s.setC b).dma = s.dma := rfl
@[simp] theorem State.setC_ram : (s.setC b).ram = s.ram := rfl
@[simp] theorem State.setC_wram : (s.setC b).wram = s.wram := rfl
@[simp] theorem State.setC_prg : (s.setC b).prg = s.prg := rfl
@[simp] theorem State.setC_chr : (s.setC b).chr = s.chr := rfl
@[simp] theorem State.setC_fresh : (s.setC b).fresh = s.fresh := rfl
@[simp] theorem State.setC_timed : (s.setC b).timed = s.timed := rfl
@[simp] theorem State.setC_cycles : (s.setC b).cycles = s.cycles := rfl
@[simp] theorem State.setC_inputs : (s.setC b).inputs = s.inputs := rfl
end setC

section setNmiPending
variable (s : State) (b : Bool)
@[simp] theorem State.setNmiPending_a : (s.setNmiPending b).cpu.a = s.cpu.a := rfl
@[simp] theorem State.setNmiPending_x : (s.setNmiPending b).cpu.x = s.cpu.x := rfl
@[simp] theorem State.setNmiPending_y : (s.setNmiPending b).cpu.y = s.cpu.y := rfl
@[simp] theorem State.setNmiPending_sp : (s.setNmiPending b).cpu.sp = s.cpu.sp := rfl
@[simp] theorem State.setNmiPending_pc : (s.setNmiPending b).cpu.pc = s.cpu.pc := rfl
@[simp] theorem State.setNmiPending_n : (s.setNmiPending b).cpu.n = s.cpu.n := rfl
@[simp] theorem State.setNmiPending_v : (s.setNmiPending b).cpu.v = s.cpu.v := rfl
@[simp] theorem State.setNmiPending_d : (s.setNmiPending b).cpu.d = s.cpu.d := rfl
@[simp] theorem State.setNmiPending_i : (s.setNmiPending b).cpu.i = s.cpu.i := rfl
@[simp] theorem State.setNmiPending_z : (s.setNmiPending b).cpu.z = s.cpu.z := rfl
@[simp] theorem State.setNmiPending_c : (s.setNmiPending b).cpu.c = s.cpu.c := rfl
@[simp] theorem State.setNmiPending_nmiPending : (s.setNmiPending b).cpu.nmiPending = b := rfl
@[simp] theorem State.setNmiPending_ppu : (s.setNmiPending b).ppu = s.ppu := rfl
@[simp] theorem State.setNmiPending_mmc3 : (s.setNmiPending b).mmc3 = s.mmc3 := rfl
@[simp] theorem State.setNmiPending_apu : (s.setNmiPending b).apu = s.apu := rfl
@[simp] theorem State.setNmiPending_pads : (s.setNmiPending b).pads = s.pads := rfl
@[simp] theorem State.setNmiPending_dma : (s.setNmiPending b).dma = s.dma := rfl
@[simp] theorem State.setNmiPending_ram : (s.setNmiPending b).ram = s.ram := rfl
@[simp] theorem State.setNmiPending_wram : (s.setNmiPending b).wram = s.wram := rfl
@[simp] theorem State.setNmiPending_prg : (s.setNmiPending b).prg = s.prg := rfl
@[simp] theorem State.setNmiPending_chr : (s.setNmiPending b).chr = s.chr := rfl
@[simp] theorem State.setNmiPending_fresh : (s.setNmiPending b).fresh = s.fresh := rfl
@[simp] theorem State.setNmiPending_timed : (s.setNmiPending b).timed = s.timed := rfl
@[simp] theorem State.setNmiPending_cycles : (s.setNmiPending b).cycles = s.cycles := rfl
@[simp] theorem State.setNmiPending_inputs : (s.setNmiPending b).inputs = s.inputs := rfl
end setNmiPending

section setP
variable (s : State) (b : Byte)
@[simp] theorem State.setP_a : (s.setP b).cpu.a = s.cpu.a := rfl
@[simp] theorem State.setP_x : (s.setP b).cpu.x = s.cpu.x := rfl
@[simp] theorem State.setP_y : (s.setP b).cpu.y = s.cpu.y := rfl
@[simp] theorem State.setP_sp : (s.setP b).cpu.sp = s.cpu.sp := rfl
@[simp] theorem State.setP_pc : (s.setP b).cpu.pc = s.cpu.pc := rfl
@[simp] theorem State.setP_n : (s.setP b).cpu.n = b.getLsbD 7 := rfl
@[simp] theorem State.setP_v : (s.setP b).cpu.v = b.getLsbD 6 := rfl
@[simp] theorem State.setP_d : (s.setP b).cpu.d = b.getLsbD 3 := rfl
@[simp] theorem State.setP_i : (s.setP b).cpu.i = b.getLsbD 2 := rfl
@[simp] theorem State.setP_z : (s.setP b).cpu.z = b.getLsbD 1 := rfl
@[simp] theorem State.setP_c : (s.setP b).cpu.c = b.getLsbD 0 := rfl
@[simp] theorem State.setP_nmiPending : (s.setP b).cpu.nmiPending = s.cpu.nmiPending := rfl
@[simp] theorem State.setP_ppu : (s.setP b).ppu = s.ppu := rfl
@[simp] theorem State.setP_mmc3 : (s.setP b).mmc3 = s.mmc3 := rfl
@[simp] theorem State.setP_apu : (s.setP b).apu = s.apu := rfl
@[simp] theorem State.setP_pads : (s.setP b).pads = s.pads := rfl
@[simp] theorem State.setP_dma : (s.setP b).dma = s.dma := rfl
@[simp] theorem State.setP_ram : (s.setP b).ram = s.ram := rfl
@[simp] theorem State.setP_wram : (s.setP b).wram = s.wram := rfl
@[simp] theorem State.setP_prg : (s.setP b).prg = s.prg := rfl
@[simp] theorem State.setP_chr : (s.setP b).chr = s.chr := rfl
@[simp] theorem State.setP_fresh : (s.setP b).fresh = s.fresh := rfl
@[simp] theorem State.setP_timed : (s.setP b).timed = s.timed := rfl
@[simp] theorem State.setP_cycles : (s.setP b).cycles = s.cycles := rfl
@[simp] theorem State.setP_inputs : (s.setP b).inputs = s.inputs := rfl
end setP

section setNZ
variable (s : State) (b : Byte)
@[simp] theorem State.setNZ_a : (s.setNZ b).cpu.a = s.cpu.a := rfl
@[simp] theorem State.setNZ_x : (s.setNZ b).cpu.x = s.cpu.x := rfl
@[simp] theorem State.setNZ_y : (s.setNZ b).cpu.y = s.cpu.y := rfl
@[simp] theorem State.setNZ_sp : (s.setNZ b).cpu.sp = s.cpu.sp := rfl
@[simp] theorem State.setNZ_pc : (s.setNZ b).cpu.pc = s.cpu.pc := rfl
@[simp] theorem State.setNZ_n : (s.setNZ b).cpu.n = b.getLsbD 7 := rfl
@[simp] theorem State.setNZ_v : (s.setNZ b).cpu.v = s.cpu.v := rfl
@[simp] theorem State.setNZ_d : (s.setNZ b).cpu.d = s.cpu.d := rfl
@[simp] theorem State.setNZ_i : (s.setNZ b).cpu.i = s.cpu.i := rfl
@[simp] theorem State.setNZ_z : (s.setNZ b).cpu.z = decide (b = 0) := rfl
@[simp] theorem State.setNZ_c : (s.setNZ b).cpu.c = s.cpu.c := rfl
@[simp] theorem State.setNZ_nmiPending : (s.setNZ b).cpu.nmiPending = s.cpu.nmiPending := rfl
@[simp] theorem State.setNZ_ppu : (s.setNZ b).ppu = s.ppu := rfl
@[simp] theorem State.setNZ_mmc3 : (s.setNZ b).mmc3 = s.mmc3 := rfl
@[simp] theorem State.setNZ_apu : (s.setNZ b).apu = s.apu := rfl
@[simp] theorem State.setNZ_pads : (s.setNZ b).pads = s.pads := rfl
@[simp] theorem State.setNZ_dma : (s.setNZ b).dma = s.dma := rfl
@[simp] theorem State.setNZ_ram : (s.setNZ b).ram = s.ram := rfl
@[simp] theorem State.setNZ_wram : (s.setNZ b).wram = s.wram := rfl
@[simp] theorem State.setNZ_prg : (s.setNZ b).prg = s.prg := rfl
@[simp] theorem State.setNZ_chr : (s.setNZ b).chr = s.chr := rfl
@[simp] theorem State.setNZ_fresh : (s.setNZ b).fresh = s.fresh := rfl
@[simp] theorem State.setNZ_timed : (s.setNZ b).timed = s.timed := rfl
@[simp] theorem State.setNZ_cycles : (s.setNZ b).cycles = s.cycles := rfl
@[simp] theorem State.setNZ_inputs : (s.setNZ b).inputs = s.inputs := rfl
end setNZ

section setPpu
variable (s : State) (part : Ppu)
@[simp] theorem State.setPpu_cpu : (s.setPpu part).cpu = s.cpu := rfl
@[simp] theorem State.setPpu_ppu : (s.setPpu part).ppu = part := rfl
@[simp] theorem State.setPpu_mmc3 : (s.setPpu part).mmc3 = s.mmc3 := rfl
@[simp] theorem State.setPpu_apu : (s.setPpu part).apu = s.apu := rfl
@[simp] theorem State.setPpu_pads : (s.setPpu part).pads = s.pads := rfl
@[simp] theorem State.setPpu_dma : (s.setPpu part).dma = s.dma := rfl
@[simp] theorem State.setPpu_ram : (s.setPpu part).ram = s.ram := rfl
@[simp] theorem State.setPpu_wram : (s.setPpu part).wram = s.wram := rfl
@[simp] theorem State.setPpu_prg : (s.setPpu part).prg = s.prg := rfl
@[simp] theorem State.setPpu_chr : (s.setPpu part).chr = s.chr := rfl
@[simp] theorem State.setPpu_fresh : (s.setPpu part).fresh = s.fresh := rfl
@[simp] theorem State.setPpu_timed : (s.setPpu part).timed = s.timed := rfl
@[simp] theorem State.setPpu_cycles : (s.setPpu part).cycles = s.cycles := rfl
@[simp] theorem State.setPpu_inputs : (s.setPpu part).inputs = s.inputs := rfl
end setPpu

section setMmc3
variable (s : State) (part : Mmc3)
@[simp] theorem State.setMmc3_cpu : (s.setMmc3 part).cpu = s.cpu := rfl
@[simp] theorem State.setMmc3_ppu : (s.setMmc3 part).ppu = s.ppu := rfl
@[simp] theorem State.setMmc3_mmc3 : (s.setMmc3 part).mmc3 = part := rfl
@[simp] theorem State.setMmc3_apu : (s.setMmc3 part).apu = s.apu := rfl
@[simp] theorem State.setMmc3_pads : (s.setMmc3 part).pads = s.pads := rfl
@[simp] theorem State.setMmc3_dma : (s.setMmc3 part).dma = s.dma := rfl
@[simp] theorem State.setMmc3_ram : (s.setMmc3 part).ram = s.ram := rfl
@[simp] theorem State.setMmc3_wram : (s.setMmc3 part).wram = s.wram := rfl
@[simp] theorem State.setMmc3_prg : (s.setMmc3 part).prg = s.prg := rfl
@[simp] theorem State.setMmc3_chr : (s.setMmc3 part).chr = s.chr := rfl
@[simp] theorem State.setMmc3_fresh : (s.setMmc3 part).fresh = s.fresh := rfl
@[simp] theorem State.setMmc3_timed : (s.setMmc3 part).timed = s.timed := rfl
@[simp] theorem State.setMmc3_cycles : (s.setMmc3 part).cycles = s.cycles := rfl
@[simp] theorem State.setMmc3_inputs : (s.setMmc3 part).inputs = s.inputs := rfl
end setMmc3

section setApu
variable (s : State) (part : Apu)
@[simp] theorem State.setApu_cpu : (s.setApu part).cpu = s.cpu := rfl
@[simp] theorem State.setApu_ppu : (s.setApu part).ppu = s.ppu := rfl
@[simp] theorem State.setApu_mmc3 : (s.setApu part).mmc3 = s.mmc3 := rfl
@[simp] theorem State.setApu_apu : (s.setApu part).apu = part := rfl
@[simp] theorem State.setApu_pads : (s.setApu part).pads = s.pads := rfl
@[simp] theorem State.setApu_dma : (s.setApu part).dma = s.dma := rfl
@[simp] theorem State.setApu_ram : (s.setApu part).ram = s.ram := rfl
@[simp] theorem State.setApu_wram : (s.setApu part).wram = s.wram := rfl
@[simp] theorem State.setApu_prg : (s.setApu part).prg = s.prg := rfl
@[simp] theorem State.setApu_chr : (s.setApu part).chr = s.chr := rfl
@[simp] theorem State.setApu_fresh : (s.setApu part).fresh = s.fresh := rfl
@[simp] theorem State.setApu_timed : (s.setApu part).timed = s.timed := rfl
@[simp] theorem State.setApu_cycles : (s.setApu part).cycles = s.cycles := rfl
@[simp] theorem State.setApu_inputs : (s.setApu part).inputs = s.inputs := rfl
end setApu

section setPads
variable (s : State) (part : Pads)
@[simp] theorem State.setPads_cpu : (s.setPads part).cpu = s.cpu := rfl
@[simp] theorem State.setPads_ppu : (s.setPads part).ppu = s.ppu := rfl
@[simp] theorem State.setPads_mmc3 : (s.setPads part).mmc3 = s.mmc3 := rfl
@[simp] theorem State.setPads_apu : (s.setPads part).apu = s.apu := rfl
@[simp] theorem State.setPads_pads : (s.setPads part).pads = part := rfl
@[simp] theorem State.setPads_dma : (s.setPads part).dma = s.dma := rfl
@[simp] theorem State.setPads_ram : (s.setPads part).ram = s.ram := rfl
@[simp] theorem State.setPads_wram : (s.setPads part).wram = s.wram := rfl
@[simp] theorem State.setPads_prg : (s.setPads part).prg = s.prg := rfl
@[simp] theorem State.setPads_chr : (s.setPads part).chr = s.chr := rfl
@[simp] theorem State.setPads_fresh : (s.setPads part).fresh = s.fresh := rfl
@[simp] theorem State.setPads_timed : (s.setPads part).timed = s.timed := rfl
@[simp] theorem State.setPads_cycles : (s.setPads part).cycles = s.cycles := rfl
@[simp] theorem State.setPads_inputs : (s.setPads part).inputs = s.inputs := rfl
end setPads

section setDma
variable (s : State) (part : Dma)
@[simp] theorem State.setDma_cpu : (s.setDma part).cpu = s.cpu := rfl
@[simp] theorem State.setDma_ppu : (s.setDma part).ppu = s.ppu := rfl
@[simp] theorem State.setDma_mmc3 : (s.setDma part).mmc3 = s.mmc3 := rfl
@[simp] theorem State.setDma_apu : (s.setDma part).apu = s.apu := rfl
@[simp] theorem State.setDma_pads : (s.setDma part).pads = s.pads := rfl
@[simp] theorem State.setDma_dma : (s.setDma part).dma = part := rfl
@[simp] theorem State.setDma_ram : (s.setDma part).ram = s.ram := rfl
@[simp] theorem State.setDma_wram : (s.setDma part).wram = s.wram := rfl
@[simp] theorem State.setDma_prg : (s.setDma part).prg = s.prg := rfl
@[simp] theorem State.setDma_chr : (s.setDma part).chr = s.chr := rfl
@[simp] theorem State.setDma_fresh : (s.setDma part).fresh = s.fresh := rfl
@[simp] theorem State.setDma_timed : (s.setDma part).timed = s.timed := rfl
@[simp] theorem State.setDma_cycles : (s.setDma part).cycles = s.cycles := rfl
@[simp] theorem State.setDma_inputs : (s.setDma part).inputs = s.inputs := rfl
end setDma

section setRam
variable (s : State) (part : Memory)
@[simp] theorem State.setRam_cpu : (s.setRam part).cpu = s.cpu := rfl
@[simp] theorem State.setRam_ppu : (s.setRam part).ppu = s.ppu := rfl
@[simp] theorem State.setRam_mmc3 : (s.setRam part).mmc3 = s.mmc3 := rfl
@[simp] theorem State.setRam_apu : (s.setRam part).apu = s.apu := rfl
@[simp] theorem State.setRam_pads : (s.setRam part).pads = s.pads := rfl
@[simp] theorem State.setRam_dma : (s.setRam part).dma = s.dma := rfl
@[simp] theorem State.setRam_ram : (s.setRam part).ram = part := rfl
@[simp] theorem State.setRam_wram : (s.setRam part).wram = s.wram := rfl
@[simp] theorem State.setRam_prg : (s.setRam part).prg = s.prg := rfl
@[simp] theorem State.setRam_chr : (s.setRam part).chr = s.chr := rfl
@[simp] theorem State.setRam_fresh : (s.setRam part).fresh = s.fresh := rfl
@[simp] theorem State.setRam_timed : (s.setRam part).timed = s.timed := rfl
@[simp] theorem State.setRam_cycles : (s.setRam part).cycles = s.cycles := rfl
@[simp] theorem State.setRam_inputs : (s.setRam part).inputs = s.inputs := rfl
end setRam

section setWram
variable (s : State) (part : Memory)
@[simp] theorem State.setWram_cpu : (s.setWram part).cpu = s.cpu := rfl
@[simp] theorem State.setWram_ppu : (s.setWram part).ppu = s.ppu := rfl
@[simp] theorem State.setWram_mmc3 : (s.setWram part).mmc3 = s.mmc3 := rfl
@[simp] theorem State.setWram_apu : (s.setWram part).apu = s.apu := rfl
@[simp] theorem State.setWram_pads : (s.setWram part).pads = s.pads := rfl
@[simp] theorem State.setWram_dma : (s.setWram part).dma = s.dma := rfl
@[simp] theorem State.setWram_ram : (s.setWram part).ram = s.ram := rfl
@[simp] theorem State.setWram_wram : (s.setWram part).wram = part := rfl
@[simp] theorem State.setWram_prg : (s.setWram part).prg = s.prg := rfl
@[simp] theorem State.setWram_chr : (s.setWram part).chr = s.chr := rfl
@[simp] theorem State.setWram_fresh : (s.setWram part).fresh = s.fresh := rfl
@[simp] theorem State.setWram_timed : (s.setWram part).timed = s.timed := rfl
@[simp] theorem State.setWram_cycles : (s.setWram part).cycles = s.cycles := rfl
@[simp] theorem State.setWram_inputs : (s.setWram part).inputs = s.inputs := rfl
end setWram

section drawn
variable (s : State)
@[simp] theorem State.drawn_cpu : s.drawn.cpu = s.cpu := rfl
@[simp] theorem State.drawn_ppu : s.drawn.ppu = s.ppu := rfl
@[simp] theorem State.drawn_mmc3 : s.drawn.mmc3 = s.mmc3 := rfl
@[simp] theorem State.drawn_apu : s.drawn.apu = s.apu := rfl
@[simp] theorem State.drawn_pads : s.drawn.pads = s.pads := rfl
@[simp] theorem State.drawn_dma : s.drawn.dma = s.dma := rfl
@[simp] theorem State.drawn_ram : s.drawn.ram = s.ram := rfl
@[simp] theorem State.drawn_wram : s.drawn.wram = s.wram := rfl
@[simp] theorem State.drawn_prg : s.drawn.prg = s.prg := rfl
@[simp] theorem State.drawn_chr : s.drawn.chr = s.chr := rfl
@[simp] theorem State.drawn_fresh : s.drawn.fresh = s.fresh + 1 := rfl
@[simp] theorem State.drawn_timed : s.drawn.timed = s.timed := rfl
@[simp] theorem State.drawn_cycles : s.drawn.cycles = s.cycles := rfl
@[simp] theorem State.drawn_inputs : s.drawn.inputs = s.inputs := rfl
end drawn

end Sys2Proof.Machine
end

