-- ==== Sys2Proof/Laws/Words.lean ====
section
/-! SUPPORT. Laws of words and of the byte image of P. -/

namespace Sys2Proof

theorem wordOf_toNat (l h : Byte) : (wordOf l h).toNat = h.toNat * 256 + l.toNat := by
  unfold wordOf
  rw [BitVec.toNat_append, ← Nat.shiftLeft_add_eq_or_of_lt l.isLt h.toNat, Nat.shiftLeft_eq]

theorem lo_toNat (w : Addr) : (lo w).toNat = w.toNat % 256 := by simp [lo]

theorem hi_toNat (w : Addr) : (hi w).toNat = w.toNat / 256 := by
  have h := w.isLt
  simp [hi, Nat.shiftRight_eq_div_pow]
  omega

@[simp] theorem lo_wordOf (l h : Byte) : lo (wordOf l h) = l := by
  apply BitVec.eq_of_toNat_eq
  rw [lo_toNat, wordOf_toNat]
  have := l.isLt
  omega

@[simp] theorem hi_wordOf (l h : Byte) : hi (wordOf l h) = h := by
  apply BitVec.eq_of_toNat_eq
  rw [hi_toNat, wordOf_toNat]
  have := l.isLt
  omega

@[simp] theorem wordOf_lo_hi (w : Addr) : wordOf (lo w) (hi w) = w := by
  apply BitVec.eq_of_toNat_eq
  rw [wordOf_toNat, lo_toNat, hi_toNat]
  omega

theorem dispByte_toInt {disp : Int} (h : dispInRange disp = true) : (dispByte disp).toInt = disp := by
  unfold dispByte dispInRange at *
  simp only [Bool.and_eq_true, decide_eq_true_eq] at h
  rw [BitVec.toInt_ofInt]
  exact Int.bmod_eq_of_le (by omega) (by omega)

end Sys2Proof

namespace Sys2Proof.Machine

/-- The bits of `P_byte(b)` (R14). -/
theorem pByte_bits (r : Cpu) (b : Bool) :
    (r.pByte b).getLsbD 7 = r.n ∧ (r.pByte b).getLsbD 6 = r.v ∧ (r.pByte b).getLsbD 5 = true
    ∧ (r.pByte b).getLsbD 4 = b ∧ (r.pByte b).getLsbD 3 = r.d ∧ (r.pByte b).getLsbD 2 = r.i
    ∧ (r.pByte b).getLsbD 1 = r.z ∧ (r.pByte b).getLsbD 0 = r.c := by
  obtain ⟨a, x, y, sp, pc, n, v, d, i, z, c, p⟩ := r
  cases n <;> cases v <;> cases d <;> cases i <;> cases z <;> cases c <;> cases b <;> simp [Cpu.pByte]

@[simp] theorem pByte_getLsbD_7 (r : Cpu) (b : Bool) : (r.pByte b).getLsbD 7 = r.n := (pByte_bits r b).1
@[simp] theorem pByte_getLsbD_6 (r : Cpu) (b : Bool) : (r.pByte b).getLsbD 6 = r.v := (pByte_bits r b).2.1
@[simp] theorem pByte_getLsbD_5 (r : Cpu) (b : Bool) : (r.pByte b).getLsbD 5 = true := (pByte_bits r b).2.2.1
@[simp] theorem pByte_getLsbD_4 (r : Cpu) (b : Bool) : (r.pByte b).getLsbD 4 = b := (pByte_bits r b).2.2.2.1
@[simp] theorem pByte_getLsbD_3 (r : Cpu) (b : Bool) : (r.pByte b).getLsbD 3 = r.d := (pByte_bits r b).2.2.2.2.1
@[simp] theorem pByte_getLsbD_2 (r : Cpu) (b : Bool) : (r.pByte b).getLsbD 2 = r.i := (pByte_bits r b).2.2.2.2.2.1
@[simp] theorem pByte_getLsbD_1 (r : Cpu) (b : Bool) : (r.pByte b).getLsbD 1 = r.z := (pByte_bits r b).2.2.2.2.2.2.1
@[simp] theorem pByte_getLsbD_0 (r : Cpu) (b : Bool) : (r.pByte b).getLsbD 0 = r.c := (pByte_bits r b).2.2.2.2.2.2.2

end Sys2Proof.Machine
end

