-- ==== Sys2Proof/Laws/Bus.lean ====
section
/-! SUPPORT. The CPU bus, region by region, and once for all what a read and a write can change. -/

namespace Sys2Proof.Machine

section regions
variable (s : State) {a : Addr}

theorem memRead_ram (h : a.toNat < 0x2000) : memRead a s = .ok (s.ram.read (ramIndex a), s) := by
  simp [memRead, h]

theorem memRead_ppu (h : 0x2000 ≤ a.toNat) (h' : a.toNat < 0x4000) : memRead a s = s.readPpuReg (a.toNat % 8) := by
  simp [memRead, show ¬a.toNat < 0x2000 by omega, h']

theorem memRead_io (h : 0x4000 ≤ a.toNat) (h' : a.toNat < 0x4020) : memRead a s = .ok (s.readIo a.toNat) := by
  simp [memRead, show ¬a.toNat < 0x2000 by omega, show ¬a.toNat < 0x4000 by omega, h']

theorem memRead_unmapped (h : 0x4020 ≤ a.toNat) (h' : a.toNat < 0x6000) : memRead a s = .ok s.openBus := by
  simp [memRead, show ¬a.toNat < 0x2000 by omega, show ¬a.toNat < 0x4000 by omega,
    show ¬a.toNat < 0x4020 by omega, h']

theorem memRead_wram (h : 0x6000 ≤ a.toNat) (h' : a.toNat < 0x8000) :
    memRead a s = .ok (if s.mmc3.wramEnabled then (s.wram.read (a.toNat - 0x6000), s) else s.openBus) := by
  simp only [memRead, show ¬a.toNat < 0x2000 by omega, show ¬a.toNat < 0x4000 by omega,
    show ¬a.toNat < 0x4020 by omega, show ¬a.toNat < 0x6000 by omega, h', if_false, if_true]
  split <;> rfl

theorem memRead_rom (h : 0x8000 ≤ a.toNat) : memRead a s = .ok (s.prgByte a, s) := by
  simp [memRead, show ¬a.toNat < 0x2000 by omega, show ¬a.toNat < 0x4000 by omega,
    show ¬a.toNat < 0x4020 by omega, show ¬a.toNat < 0x6000 by omega, show ¬a.toNat < 0x8000 by omega]

theorem memWrite_ram (v : Byte) (h : a.toNat < 0x2000) :
    memWrite a v s = .ok (s.setRam (s.ram.write (ramIndex a) v)) := by
  simp [memWrite, h]

theorem memWrite_ppu (v : Byte) (h : 0x2000 ≤ a.toNat) (h' : a.toNat < 0x4000) :
    memWrite a v s = s.writePpuReg (a.toNat % 8) v := by
  simp [memWrite, show ¬a.toNat < 0x2000 by omega, h']

theorem memWrite_io (v : Byte) (h : 0x4000 ≤ a.toNat) (h' : a.toNat < 0x4020) :
    memWrite a v s = s.writeIo a.toNat v := by
  simp [memWrite, show ¬a.toNat < 0x2000 by omega, show ¬a.toNat < 0x4000 by omega, h']

theorem memWrite_unmapped (v : Byte) (h : 0x4020 ≤ a.toNat) (h' : a.toNat < 0x6000) : memWrite a v s = .ok s := by
  simp [memWrite, show ¬a.toNat < 0x2000 by omega, show ¬a.toNat < 0x4000 by omega,
    show ¬a.toNat < 0x4020 by omega, h']

theorem memWrite_wram (v : Byte) (h : 0x6000 ≤ a.toNat) (h' : a.toNat < 0x8000) :
    memWrite a v s = .ok (if s.mmc3.wramWritable then s.setWram (s.wram.write (a.toNat - 0x6000) v) else s) := by
  simp only [memWrite, show ¬a.toNat < 0x2000 by omega, show ¬a.toNat < 0x4000 by omega,
    show ¬a.toNat < 0x4020 by omega, show ¬a.toNat < 0x6000 by omega, h', if_false, if_true]
  split <;> rfl

theorem memWrite_rom (v : Byte) (h : 0x8000 ≤ a.toNat) :
    memWrite a v s = .ok (s.setMmc3 (s.mmc3.writeReg a v)) := by
  simp [memWrite, show ¬a.toNat < 0x2000 by omega, show ¬a.toNat < 0x4000 by omega,
    show ¬a.toNat < 0x4020 by omega, show ¬a.toNat < 0x6000 by omega, show ¬a.toNat < 0x8000 by omega]

end regions

/-- A zero-page address is a RAM address. -/
theorem zeroPage_toNat (p : Byte) : (BitVec.setWidth 16 p).toNat = p.toNat := by
  have := p.isLt
  simp [Nat.mod_eq_of_lt (show p.toNat < 65536 by omega)]

/-- A zero-page address reads RAM and changes nothing (R48). -/
theorem memRead_zeroPage (p : Byte) (s : State) : memRead (BitVec.setWidth 16 p) s = .ok (s.ram.read p.toNat, s) := by
  have h := p.isLt
  have hz := zeroPage_toNat p
  rw [memRead_ram s (by omega), ramIndex, hz, Nat.mod_eq_of_lt (by omega)]

/-- A zero-page address writes RAM (R48). -/
theorem memWrite_zeroPage (p v : Byte) (s : State) :
    memWrite (BitVec.setWidth 16 p) v s = .ok (s.setRam (s.ram.write p.toNat v)) := by
  have h := p.isLt
  have hz := zeroPage_toNat p
  rw [memWrite_ram s v (by omega), ramIndex, hz, Nat.mod_eq_of_lt (by omega)]

/-! ### What a read can change: the PPU's status and buffer, the A12 clocks, a port, a free value drawn. -/

section clocks
variable (m : Mmc3) (k : Nat)
@[simp] theorem Mmc3.clocks_bankSelect : (m.clocks k).bankSelect = m.bankSelect := rfl
@[simp] theorem Mmc3.clocks_r6 : (m.clocks k).r6 = m.r6 := rfl
@[simp] theorem Mmc3.clocks_r7 : (m.clocks k).r7 = m.r7 := rfl
@[simp] theorem Mmc3.clocks_mirroring : (m.clocks k).mirroring = m.mirroring := rfl
@[simp] theorem Mmc3.clocks_prgRamProtect : (m.clocks k).prgRamProtect = m.prgRamProtect := rfl
@[simp] theorem Mmc3.clocks_irqLatch : (m.clocks k).irqLatch = m.irqLatch := rfl
@[simp] theorem Mmc3.clocks_irqEnable : (m.clocks k).irqEnable = m.irqEnable := rfl
end clocks

/-- The parts of the state that no bus access reaches: all of them but the PPU, the MMC3, the APU, the ports, the DMA
engine, the NMI latch and the RAMs. -/
structure BusFrame (s t : State) : Prop where
  a : t.cpu.a = s.cpu.a
  x : t.cpu.x = s.cpu.x
  y : t.cpu.y = s.cpu.y
  sp : t.cpu.sp = s.cpu.sp
  pc : t.cpu.pc = s.cpu.pc
  n : t.cpu.n = s.cpu.n
  v : t.cpu.v = s.cpu.v
  d : t.cpu.d = s.cpu.d
  i : t.cpu.i = s.cpu.i
  z : t.cpu.z = s.cpu.z
  c : t.cpu.c = s.cpu.c
  prg : t.prg = s.prg
  chr : t.chr = s.chr
  timed : t.timed = s.timed
  cycles : t.cycles = s.cycles
  inputs : t.inputs = s.inputs
  scanline : t.ppu.scanline = s.ppu.scanline
  dot : t.ppu.dot = s.ppu.dot
  dmcIrqEnabled : s.apu.dmcIrqEnabled = true → t.apu.dmcIrqEnabled = true

theorem BusFrame.refl (s : State) : BusFrame s s := by constructor <;> first | rfl | exact id

theorem BusFrame.trans {s t u : State} (h : BusFrame s t) (h' : BusFrame t u) : BusFrame s u := by
  constructor
  case dmcIrqEnabled => exact fun e => h'.dmcIrqEnabled (h.dmcIrqEnabled e)
  all_goals first
    | exact h'.a.trans h.a | exact h'.x.trans h.x | exact h'.y.trans h.y | exact h'.sp.trans h.sp
    | exact h'.pc.trans h.pc | exact h'.n.trans h.n | exact h'.v.trans h.v | exact h'.d.trans h.d
    | exact h'.i.trans h.i | exact h'.z.trans h.z | exact h'.c.trans h.c | exact h'.prg.trans h.prg
    | exact h'.chr.trans h.chr | exact h'.timed.trans h.timed | exact h'.cycles.trans h.cycles
    | exact h'.inputs.trans h.inputs | exact h'.scanline.trans h.scanline | exact h'.dot.trans h.dot

/-- What a read leaves unchanged besides: the storages, the whole CPU, the DMA engine, and all but one field of the
chips. -/
structure ReadFrame (s t : State) : Prop where
  cpu : t.cpu = s.cpu
  dma : t.dma = s.dma
  ram : t.ram = s.ram
  wram : t.wram = s.wram
  prg : t.prg = s.prg
  chr : t.chr = s.chr
  timed : t.timed = s.timed
  cycles : t.cycles = s.cycles
  inputs : t.inputs = s.inputs
  ctrl : t.ppu.ctrl = s.ppu.ctrl
  mask : t.ppu.mask = s.ppu.mask
  oamAddr : t.ppu.oamAddr = s.ppu.oamAddr
  scanline : t.ppu.scanline = s.ppu.scanline
  dot : t.ppu.dot = s.ppu.dot
  nametables : t.ppu.nametables = s.ppu.nametables
  palette : t.ppu.palette = s.ppu.palette
  oam : t.ppu.oam = s.ppu.oam
  vblank : t.ppu.vblank = true → s.ppu.vblank = true
  vblanksSeen : s.ppu.vblanksSeen ≤ 2 → t.ppu.vblanksSeen ≤ 2
  frameIrq : t.apu.frameIrq = true → s.apu.frameIrq = true
  apu : { t.apu with frameIrq := s.apu.frameIrq } = s.apu
  bankSelect : t.mmc3.bankSelect = s.mmc3.bankSelect
  r6 : t.mmc3.r6 = s.mmc3.r6
  r7 : t.mmc3.r7 = s.mmc3.r7
  prgRamProtect : t.mmc3.prgRamProtect = s.mmc3.prgRamProtect

theorem ReadFrame.refl (s : State) : ReadFrame s s := by constructor <;> first | rfl | exact id

theorem ReadFrame.trans {s t u : State} (h : ReadFrame s t) (h' : ReadFrame t u) : ReadFrame s u := by
  constructor
  case vblank => exact fun e => h.vblank (h'.vblank e)
  case vblanksSeen => exact fun e => h'.vblanksSeen (h.vblanksSeen e)
  case frameIrq => exact fun e => h.frameIrq (h'.frameIrq e)
  case apu =>
    have e := congrArg (fun p : Apu => { p with frameIrq := s.apu.frameIrq }) h'.apu
    exact e.trans h.apu
  all_goals first
    | exact h'.cpu.trans h.cpu | exact h'.dma.trans h.dma | exact h'.ram.trans h.ram | exact h'.wram.trans h.wram
    | exact h'.prg.trans h.prg | exact h'.chr.trans h.chr | exact h'.timed.trans h.timed | exact h'.cycles.trans h.cycles
    | exact h'.inputs.trans h.inputs | exact h'.ctrl.trans h.ctrl | exact h'.mask.trans h.mask | exact h'.oamAddr.trans h.oamAddr
    | exact h'.scanline.trans h.scanline | exact h'.dot.trans h.dot | exact h'.nametables.trans h.nametables | exact h'.palette.trans h.palette
    | exact h'.oam.trans h.oam | exact h'.bankSelect.trans h.bankSelect | exact h'.r6.trans h.r6 | exact h'.r7.trans h.r7
    | exact h'.prgRamProtect.trans h.prgRamProtect

/-- The bits of a controller port's byte: the button, and above it free bits, or zeros in bits 4-1 with standard
controllers (R322, U4). -/
theorem padByte_bits (standard button : Bool) (free : Byte) :
    (padByte standard button free).getLsbD 0 = button ∧
    (padByte standard button free).extractLsb' 5 3 = free.extractLsb' 5 3 ∧
    (padByte standard button free).extractLsb' 1 4 = if standard then 0 else free.extractLsb' 1 4 := by
  revert free
  cases standard <;> cases button <;> decide +kernel

theorem openBus_frame (s : State) : ReadFrame s s.openBus.2 := by constructor <;> first | rfl | exact id

theorem readStatus_frame (s : State) : ReadFrame s s.readStatus.2 := by
  constructor <;> try first | rfl | exact id
  · intro h
    exact absurd h Bool.false_ne_true
  · intro h
    simp only [State.readStatus, State.setPpu_ppu]
    split
    · next hc =>
      simp only [Bool.and_eq_true, decide_eq_true_eq] at hc
      omega
    · exact h

theorem readPpuReg_frame {s : State} {reg : Nat} {b : Byte} {t : State} (h : s.readPpuReg reg = .ok (b, t)) :
    ReadFrame s t := by
  unfold State.readPpuReg at h
  split at h
  · cases h
    exact readStatus_frame s
  · unfold State.readOamData at h
    split at h
    · cases h
      exact ReadFrame.refl s
    · cases h
  · unfold State.readPpuData at h
    split at h
    · split at h <;> (cases h; constructor <;> first | rfl | exact id)
    · cases h
  · cases h
    exact openBus_frame s

theorem readIo_frame (s : State) (address : Nat) : ReadFrame s (s.readIo address).2 := by
  unfold State.readIo
  split
  · constructor <;> try first | rfl | exact id
    intro h
    exact absurd h Bool.false_ne_true
  · split
    · unfold State.readPad1
      split <;> (constructor <;> first | rfl | exact id)
    · split
      · unfold State.readPad2
        split <;> (constructor <;> first | rfl | exact id)
      · exact openBus_frame s

/-- What a CPU bus read can change, once for all addresses. -/
theorem memRead_frame {a : Addr} {s t : State} {b : Byte} (h : memRead a s = .ok (b, t)) : ReadFrame s t := by
  unfold memRead at h
  split at h
  · cases h
    exact ReadFrame.refl s
  · split at h
    · exact readPpuReg_frame h
    · split at h
      · rw [show t = (s.readIo a.toNat).2 from (congrArg Prod.snd (Except.ok.inj h)).symm]
        exact readIo_frame s a.toNat
      · split at h
        · cases h
          exact openBus_frame s
        · split at h
          · split at h
            · cases h
              exact ReadFrame.refl s
            · cases h
              exact openBus_frame s
          · cases h
            exact ReadFrame.refl s

theorem ReadFrame.bus {s t : State} (h : ReadFrame s t) : BusFrame s t := by
  have hapu := h.apu
  constructor
  case prg => exact h.prg
  case chr => exact h.chr
  case timed => exact h.timed
  case cycles => exact h.cycles
  case inputs => exact h.inputs
  case scanline => exact h.scanline
  case dot => exact h.dot
  case dmcIrqEnabled =>
    intro e
    rw [← hapu] at e
    exact e
  all_goals rw [h.cpu]

/-- What a CPU bus read gives in plain memory, and that it changes nothing there (R41, R56). -/
theorem memRead_plainMemory {a : Addr} (s : State)
    (h : a.toNat < 0x2000 ∨ (0x6000 ≤ a.toNat ∧ a.toNat < 0x8000 ∧ s.mmc3.wramEnabled = true) ∨ 0x8000 ≤ a.toNat) :
    ∃ b, memRead a s = .ok (b, s) := by
  rcases h with h | ⟨h1, h2, h3⟩ | h
  · exact ⟨_, memRead_ram s h⟩
  · rw [memRead_wram s h1 h2, h3]
    exact ⟨_, rfl⟩
  · exact ⟨_, memRead_rom s h⟩

theorem writeWarm_frame (s : State) (p : Ppu) (hs : p.scanline = s.ppu.scanline) (hd : p.dot = s.ppu.dot) :
    BusFrame s (s.writeWarm p) := by
  unfold State.writeWarm
  split <;> (constructor <;> first | rfl | exact id | exact hs | exact hd)

/-- All a write of $2000, $2001, $2005 or $2006 can do (R396): it takes effect, or during warm-up is dropped, where a
draw is all that happened. -/
theorem writeWarm_cases (s : State) (p : Ppu) :
    (2 ≤ s.ppu.vblanksSeen ∧ s.writeWarm p = s.setPpuNmi p) ∨
    (s.ppu.vblanksSeen < 2 ∧ s.writeWarm p = (s.setPpuNmi (Ppu.applyIf true p s.ppu)).drawn) ∨
    (s.ppu.vblanksSeen < 2 ∧ s.writeWarm p = s.drawn) := by
  unfold State.writeWarm
  split
  · exact .inl ⟨‹_›, rfl⟩
  · cases Config.warmUpApplies s.fresh
    · refine .inr (.inr ⟨by omega, congrArg State.drawn ?_⟩)
      show { s with cpu := { s.cpu with nmiPending := s.cpu.nmiPending || (s.ppu.nmiLine && !s.ppu.nmiLine) } } = s
      rw [Bool.and_not_self, Bool.or_false]
    · exact .inr (.inl ⟨by omega, rfl⟩)

/-- A register write that leaves PPUCTRL and vblank alone leaves the NMI latch alone (R227). -/
theorem setPpuNmi_quiet {s : State} {p : Ppu} (hc : p.ctrl = s.ppu.ctrl) (hv : p.vblank = s.ppu.vblank) :
    s.setPpuNmi p = s.setPpu p := by
  have hl : p.nmiLine = s.ppu.nmiLine := by unfold Ppu.nmiLine; rw [hc, hv]
  show { s.setPpu p with cpu := { s.cpu with nmiPending := s.cpu.nmiPending || (p.nmiLine && !s.ppu.nmiLine) } } = s.setPpu p
  rw [hl, Bool.and_not_self, Bool.or_false]
  rfl

/-- Where `v` bit 12 does not rise, only a draw happened (R351). -/
theorem noteA12_quiet {s : State} {before : BitVec 15} (h : ¬(s.ppu.v.getLsbD 12 = true ∧ before.getLsbD 12 = false)) :
    s.noteA12 before = s.drawn := by
  have h0 : (s.ppu.v.getLsbD 12 && !before.getLsbD 12) = false := by
    cases h1 : s.ppu.v.getLsbD 12 <;> cases h2 : before.getLsbD 12 <;> simp_all
  unfold State.noteA12
  rw [h0, Mmc3.clocks_eq]
  rfl

theorem noteA12_frame (s : State) (before : BitVec 15) : BusFrame s (s.noteA12 before) := by
  constructor <;> first | rfl | exact id

theorem ppuWrite_frame (s : State) (a : PpuAddr) (d : Byte) : BusFrame s (s.ppuWrite a d) := by
  unfold State.ppuWrite
  split
  · exact BusFrame.refl s
  · split <;> (constructor <;> first | rfl | exact id)

theorem setPpu_frame (s : State) (p : Ppu) (hs : p.scanline = s.ppu.scanline) (hd : p.dot = s.ppu.dot) :
    BusFrame s (s.setPpu p) := by
  constructor <;> first | rfl | exact id | exact hs | exact hd

theorem writeScroll_place (p : Ppu) (d : Byte) :
    (p.writeScroll d).scanline = p.scanline ∧ (p.writeScroll d).dot = p.dot := by
  unfold Ppu.writeScroll
  split <;> exact ⟨rfl, rfl⟩

theorem writeAddr_place (p : Ppu) (d : Byte) :
    (p.writeAddr d).scanline = p.scanline ∧ (p.writeAddr d).dot = p.dot := by
  unfold Ppu.writeAddr
  split <;> exact ⟨rfl, rfl⟩

theorem writePpuReg_frame {s t : State} {reg : Nat} {d : Byte} (h : s.writePpuReg reg d = .ok t) : BusFrame s t := by
  unfold State.writePpuReg at h
  split at h
  · split at h
    · cases h
    · cases h
      exact writeWarm_frame s _ rfl rfl
  · cases h
    exact writeWarm_frame s _ rfl rfl
  · cases h
    exact BusFrame.refl s
  · cases h
    exact setPpu_frame s _ rfl rfl
  · unfold State.writeOamData at h
    split at h
    · cases h
      exact setPpu_frame s _ rfl rfl
    · cases h
  · cases h
    exact writeWarm_frame s _ (writeScroll_place _ _).1 (writeScroll_place _ _).2
  · cases h
    exact (writeWarm_frame s _ (writeAddr_place _ _).1 (writeAddr_place _ _).2).trans (noteA12_frame _ _)
  · unfold State.writePpuData at h
    split at h
    · cases h
      refine BusFrame.trans (BusFrame.trans (ppuWrite_frame s s.ppu.vramAddr d) (setPpu_frame _ _ ?_ ?_)) (noteA12_frame _ _)
      all_goals rfl
    · cases h

theorem writeIo_frame {s t : State} {address : Nat} {d : Byte} (h : s.writeIo address d = .ok t) : BusFrame s t := by
  unfold State.writeIo at h
  split at h
  · cases h
    constructor <;> try first | rfl | exact id
    intro e
    simp [Apu.writeChannel, e]
  · split at h
    · unfold State.startDma at h
      split at h
      · cases h
      · split at h
        · cases h
          constructor <;> first | rfl | exact id
        · cases h
    · split at h
      · split at h
        · cases h
        · cases h
          constructor <;> first | rfl | exact id
      · split at h
        · cases h
          constructor <;> first | rfl | exact id
        · split at h
          · cases h
            constructor <;> first | rfl | exact id
          · cases h
            exact BusFrame.refl s

/-- What a CPU bus write cannot change, once for all addresses: registers, flags, ROM, the PPU's place. -/
theorem memWrite_frame {a : Addr} {v : Byte} {s t : State} (h : memWrite a v s = .ok t) : BusFrame s t := by
  unfold memWrite at h
  split at h
  · cases h
    constructor <;> first | rfl | exact id
  · split at h
    · exact writePpuReg_frame h
    · split at h
      · exact writeIo_frame h
      · split at h
        · cases h
          exact BusFrame.refl s
        · split at h
          · split at h
            · cases h
              constructor <;> first | rfl | exact id
            · cases h
              exact BusFrame.refl s
          · cases h
            constructor <;> first | rfl | exact id

end Sys2Proof.Machine
end

