-- ==== Sys2Proof/Laws/Access.lean ====
section
/-! SUPPORT. Which accesses the spec admits, and the answers of the shared operand shapes (read, store,
read-modify-write) in the terms of Safety: one lemma per shape, which a proof about an instruction cites. -/

namespace Sys2Proof.Machine

/-- The effect of a $2006 or $2007 access on the MMC3, whatever the access did before it (R351). -/
theorem noteA12_effect {s t : State} (h : t.mmc3 = s.mmc3) : A12Effect s (t.noteA12 s.ppu.v) := by
  unfold A12Effect
  split
  · exact ⟨_, (Mmc3.clocks_eq _ _).trans (by rw [h])⟩
  · next hn =>
    rw [noteA12_quiet (s := t) hn]
    exact h

/-- The reads of the PPU's registers that are refused are those of $2004 and $2007 outside `vram_safe`. -/
theorem readPpuReg_answers (s : State) (reg : Nat) :
    (∃ b t, s.readPpuReg reg = .ok (b, t)) ∨
    (s.ppu.vramSafe = false ∧ reg = 4 ∧ s.readPpuReg reg = .error .oamUnsafe) ∨
    (s.ppu.vramSafe = false ∧ reg = 7 ∧ s.readPpuReg reg = .error .vramUnsafe) := by
  unfold State.readPpuReg
  split
  · exact .inl ⟨_, _, rfl⟩
  · unfold State.readOamData
    cases h : s.ppu.vramSafe
    · exact .inr (.inl ⟨rfl, rfl, rfl⟩)
    · exact .inl ⟨_, _, rfl⟩
  · unfold State.readPpuData
    cases h : s.ppu.vramSafe
    · exact .inr (.inr ⟨rfl, rfl, rfl⟩)
    · simp only [if_true]
      split <;> exact .inl ⟨_, _, rfl⟩
  · exact .inl ⟨_, _, rfl⟩

/-- An admitted PPU register read is answered. -/
theorem readPpuReg_admitted {s : State} {reg : Nat} (h : s.ppu.vramSafe = true ∨ (reg ≠ 4 ∧ reg ≠ 7)) :
    ∃ b t, s.readPpuReg reg = .ok (b, t) := by
  rcases readPpuReg_answers s reg with hok | ⟨hs, hr, -⟩ | ⟨hs, hr, -⟩
  · exact hok
  · rcases h with h | h
    · rw [h] at hs
      cases hs
    · exact absurd hr h.1
  · rcases h with h | h
    · rw [h] at hs
      cases hs
    · exact absurd hr h.2

theorem memRead_admitted {s : State} {a : Addr} (h : s.readAdmitted a = true) :
    memRead a s = .ok (s.readValue a, s.afterRead a) := by
  have ok : ∃ b t, memRead a s = .ok (b, t) := by
    unfold memRead
    split
    · exact ⟨_, _, rfl⟩
    · next h1 =>
      split
      · next h2 =>
        refine readPpuReg_admitted ?_
        have h1' : 0x2000 ≤ a.toNat := by omega
        have h2' : a.toNat < 0x4000 := h2
        simp only [State.readAdmitted, h1', h2', decide_true, Bool.true_and, Bool.not_eq_true', Bool.and_eq_false_iff,
          Bool.or_eq_false_iff, decide_eq_false_iff_not, Bool.not_eq_false'] at h
        rcases h with h | h
        · exact .inr h
        · exact .inl h
      · split
        · exact ⟨_, _, rfl⟩
        · split
          · exact ⟨_, _, rfl⟩
          · split
            · split <;> exact ⟨_, _, rfl⟩
            · exact ⟨_, _, rfl⟩
  obtain ⟨b, t, hbt⟩ := ok
  simp only [State.readValue, State.afterRead, hbt]

theorem memRead_refused {s : State} {a : Addr} (h : s.readAdmitted a = false) :
    memRead a s = .error (if a.toNat % 8 = 4 then .oamUnsafe else .vramUnsafe) := by
  simp only [State.readAdmitted, Bool.not_eq_false', Bool.and_eq_true, Bool.or_eq_true, decide_eq_true_eq,
    Bool.not_eq_true'] at h
  obtain ⟨⟨⟨h1, h2⟩, hreg⟩, hsafe⟩ := h
  rw [memRead_ppu s h1 h2]
  rcases hreg with hreg | hreg <;> simp [hreg, State.readPpuReg, State.readOamData, State.readPpuData, hsafe]

theorem memWrite_admitted {s : State} {a : Addr} {v : Byte} (h : s.writeAdmitted a v = true) :
    memWrite a v s = .ok (s.afterWrite a v) := by
  have ok : ∃ t, memWrite a v s = .ok t := by
    unfold memWrite
    split
    · exact ⟨_, rfl⟩
    · next h1 =>
      split
      · next h2 =>
        simp only [State.writeAdmitted, show 0x2000 ≤ a.toNat ∧ a.toNat < 0x4000 from ⟨by omega, h2⟩] at h
        unfold State.writePpuReg
        split
        · next hreg =>
          simp [hreg] at h
          simp [h]
        · exact ⟨_, rfl⟩
        · exact ⟨_, rfl⟩
        · exact ⟨_, rfl⟩
        · next hreg =>
          simp only [hreg] at h
          simp at h
          simp [State.writeOamData, h]
        · exact ⟨_, rfl⟩
        · exact ⟨_, rfl⟩
        · next r0 r1 r2 r3 r4 r5 r6 =>
          have hlt : a.toNat % 8 < 8 := Nat.mod_lt _ (by decide)
          have n0 : a.toNat % 8 ≠ 0 := r0
          have n1 : a.toNat % 8 ≠ 1 := r1
          have n2 : a.toNat % 8 ≠ 2 := r2
          have n3 : a.toNat % 8 ≠ 3 := r3
          have n4 : a.toNat % 8 ≠ 4 := r4
          have n5 : a.toNat % 8 ≠ 5 := r5
          have n6 : a.toNat % 8 ≠ 6 := r6
          have hreg : a.toNat % 8 = 7 := by omega
          simp only [hreg] at h
          simp at h
          simp [State.writePpuData, h]
      · next h2 =>
        split
        · next h3 =>
          unfold State.writeIo
          split
          · exact ⟨_, rfl⟩
          · split
            · next h4 =>
              have ha : a = 0x4014 := BitVec.eq_of_toNat_eq h4
              subst ha
              simp only [State.writeAdmitted] at h
              simp at h
              simp [State.startDma, h.1, h.2]
            · split
              · next h5 =>
                have ha : a = 0x4015 := BitVec.eq_of_toNat_eq h5
                subst ha
                simp only [State.writeAdmitted] at h
                simp at h
                simp [h]
              · split
                · exact ⟨_, rfl⟩
                · split <;> exact ⟨_, rfl⟩
        · split
          · exact ⟨_, rfl⟩
          · split
            · split <;> exact ⟨_, rfl⟩
            · exact ⟨_, rfl⟩
  obtain ⟨t, ht⟩ := ok
  simp only [State.afterWrite, ht]

theorem memWrite_refused {s : State} {a : Addr} {v : Byte} (h : s.writeAdmitted a v = false) :
    memWrite a v s = .error (writeRefusal a v) := by
  unfold State.writeAdmitted at h
  split at h
  · next hr =>
    have h4014 : a ≠ 0x4014 := by
      rintro rfl
      exact absurd hr.2 (by decide)
    have h4015 : a ≠ 0x4015 := by
      rintro rfl
      exact absurd hr.2 (by decide)
    rw [memWrite_ppu s v hr.1 hr.2]
    simp only [writeRefusal, h4014, h4015, if_false]
    split at h
    · next hreg =>
      simp only [Bool.not_eq_false'] at h
      simp [hreg, State.writePpuReg, h]
    · split at h
      · next hreg =>
        rcases hreg with hreg | hreg <;> simp [hreg, State.writePpuReg, State.writeOamData, State.writePpuData, h]
      · cases h
  · split at h
    · next ha =>
      subst ha
      rw [memWrite_io s v (by decide) (by decide)]
      simp only [writeRefusal, if_true]
      simp only [Bool.and_eq_false_iff, Bool.not_eq_false'] at h
      cases hp : dmaPageRefused v
      · rw [hp] at h
        simp only [Bool.false_eq_true, false_or] at h
        simp [State.writeIo, State.startDma, hp, h]
      · simp [State.writeIo, State.startDma, hp]
    · split at h
      · next ha =>
        subst ha
        rw [memWrite_io s v (by decide) (by decide)]
        simp only [Bool.not_eq_false'] at h
        simp [State.writeIo, writeRefusal, h]
      · cases h

/-- Plain memory is admitted, gives its byte and is left as it was. -/
theorem memRead_plain {s : State} {a : Addr} (h : s.plain a = true) : memRead a s = .ok (s.plainByte a, s) := by
  simp only [State.plain, Bool.or_eq_true, Bool.and_eq_true, decide_eq_true_eq] at h
  rcases h with (h | ⟨⟨h1, h2⟩, h3⟩) | h
  · simp only [memRead_ram s h, State.plainByte, h, if_true, ramIndex]
  · rw [memRead_wram s h1 h2, h3]
    simp only [State.plainByte, show ¬a.toNat < 0x2000 by omega, h2, if_false, if_true]
  · rw [memRead_rom s h]
    simp only [State.plainByte, show ¬a.toNat < 0x2000 by omega, show ¬a.toNat < 0x8000 by omega, if_false, State.prgByte]

theorem plain_admitted {s : State} {a : Addr} (h : s.plain a = true) : s.readAdmitted a = true := by
  cases hr : s.readAdmitted a
  · have h1 := memRead_plain h
    rw [memRead_refused hr] at h1
    cases h1
  · rfl

theorem readValue_plain {s : State} {a : Addr} (h : s.plain a = true) : s.readValue a = s.plainByte a := by
  simp only [State.readValue, memRead_plain h]

theorem afterRead_plain {s : State} {a : Addr} (h : s.plain a = true) : s.afterRead a = s := by
  simp only [State.afterRead, memRead_plain h]

/-- A read leaves every register and flag as it was. -/
@[simp] theorem afterRead_cpu (s : State) (a : Addr) : (s.afterRead a).cpu = s.cpu := by
  unfold State.afterRead
  split
  · next h => exact (memRead_frame h).cpu
  · rfl

theorem onRead_readsAt (ea : Addr) (s : State) (effect : State → Byte → State) :
    ReadsAt (onRead (memRead ea s) effect) ea s effect := by
  unfold ReadsAt
  cases h : s.readAdmitted ea
  · simp [memRead_refused h, onRead]
  · simp [memRead_admitted h, onRead]

theorem onRead_readsIndexed (base : Addr) (index : Byte) (s : State) (effect : State → Byte → State) :
    ReadsIndexed (onRead (readIndexed base index s) effect) base index s effect := by
  unfold ReadsIndexed readIndexed indexCarries uncarried
  by_cases h : 256 ≤ (lo base).toNat + index.toNat ∧ readSensitive (wordOf (lo base + index) (hi base)) = true
  · simp [h, onRead]
  · have hc : (decide (256 ≤ (lo base).toNat + index.toNat) && readSensitive (wordOf (lo base + index) (hi base))) = false := by
      cases hd : decide (256 ≤ (lo base).toNat + index.toNat)
      · rfl
      · cases hs : readSensitive (wordOf (lo base + index) (hi base))
        · rfl
        · exact absurd ⟨of_decide_eq_true hd, hs⟩ h
    simp only [h, hc, if_false, Bool.false_eq_true]
    exact onRead_readsAt _ _ _

theorem onWrite_writesAt (ea : Addr) (v : Byte) (s : State) : WritesAt (onWrite (memWrite ea v s)) ea v s := by
  unfold WritesAt
  cases h : s.writeAdmitted ea v
  · simp [memWrite_refused h, onWrite]
  · simp [memWrite_admitted h, onWrite]

theorem onWrite_writesIndexed (base : Addr) (index v : Byte) (s : State) :
    WritesIndexed (onWrite (writeIndexed base index v s)) base index v s := by
  unfold WritesIndexed writeIndexed uncarried
  cases h : readSensitive (wordOf (lo base + index) (hi base))
  · simp only [Bool.false_eq_true, if_false]
    exact onWrite_writesAt _ _ _
  · simp [onWrite]

/-- What a read-modify-write instruction answers, given that its operation changes flags only. -/
theorem onModify_modifiesAt (op : State → Byte → Byte × State) (result : Cpu → Byte → Byte) (flags : Cpu → Byte → Cpu)
    (hop : ∀ t m, op t m = (result t.cpu m, { t with cpu := flags t.cpu m })) (ea : Addr) (s : State) :
    ModifiesAt (onModify op ea s) ea s result flags := by
  unfold ModifiesAt onModify modifyRefused
  by_cases h : (0x2000 ≤ ea.toNat ∧ ea.toNat ≤ 0x5FFF) ∨ 0x8000 ≤ ea.toNat
  · have hb : ((decide (0x2000 ≤ ea.toNat) && decide (ea.toNat ≤ 0x5FFF)) || decide (0x8000 ≤ ea.toNat)) = true := by
      simpa using h
    simp [h, hb]
  · have hb : ((decide (0x2000 ≤ ea.toNat) && decide (ea.toNat ≤ 0x5FFF)) || decide (0x8000 ≤ ea.toNat)) = false := by
      rw [← Bool.not_eq_true]
      simpa using h
    simp only [h, hb, if_false, Bool.false_eq_true]
    have hr : s.readAdmitted ea = true := by
      simp only [State.readAdmitted, Bool.not_eq_true', Bool.and_eq_false_iff, decide_eq_false_iff_not]
      left; left; omega
    rw [memRead_admitted hr]
    simp only [hop, afterRead_cpu]
    have hw : ∀ (t : State) (v : Byte), t.writeAdmitted ea v = true := by
      intro t v
      have h1 : ea ≠ 0x4014 := by
        rintro rfl
        exact h (by decide)
      have h2 : ea ≠ 0x4015 := by
        rintro rfl
        exact h (by decide)
      simp only [State.writeAdmitted, show ¬(0x2000 ≤ ea.toNat ∧ ea.toNat < 0x4000) by omega, h1, h2, if_false]
    rw [memWrite_admitted (hw _ _)]
    rfl

end Sys2Proof.Machine
end

