-- ==== Sys2Proof/Laws/Decode.lean ====
section
/-! SUPPORT. What the opcode matrix says of one opcode byte (30_encoding.md R82, R89): the instruction its form makes is
well-formed, has that byte as its opcode and the form's operand bytes behind it. -/

namespace Sys2Proof

/-- The form of an opcode agrees with the encoder. -/
def Form.Agrees (op : Byte) : Form → Prop
  | .undef => True
  | .f1 i => i.wf = true ∧ encode i = [op] ∧ lengthOf i = 1
  | .f2 mk => ∀ b, (mk b).wf = true ∧ encode (mk b) = [op, b] ∧ lengthOf (mk b) = 2
  | .rel mk => ∀ disp, (mk disp).wf = dispInRange disp ∧ encode (mk disp) = [op, dispByte disp] ∧ lengthOf (mk disp) = 2
  | .f3 mk => ∀ a, (mk a).wf = true ∧ encode (mk a) = [op, lo a, hi a] ∧ lengthOf (mk a) = 3

theorem byte_cases {P : Byte → Prop} (h : ∀ high low : Fin 16, P (BitVec.ofNat 8 (high.val * 16 + low.val))) (b : Byte) :
    P b := by
  have hb := b.isLt
  have hrec := h ⟨b.toNat / 16, by omega⟩ ⟨b.toNat % 16, by omega⟩
  have he : BitVec.ofNat 8 (b.toNat / 16 * 16 + b.toNat % 16) = b := by
    apply BitVec.eq_of_toNat_eq
    simp only [BitVec.toNat_ofNat]
    omega
  rwa [he] at hrec

theorem formOf_agrees (op : Byte) : (formOf op).Agrees op := by
  refine byte_cases (P := fun op => (formOf op).Agrees op) (fun high low => ?_) op
  fin_cases high <;> fin_cases low <;>
    first
      | exact trivial
      | exact ⟨rfl, rfl, rfl⟩
      | exact fun _ => ⟨rfl, rfl, rfl⟩

theorem dispByte_of_toInt : ∀ b : Byte, dispByte b.toInt = b := by decide

theorem dispInRange_toInt : ∀ b : Byte, dispInRange b.toInt = true := by decide

theorem displacement_signExtend : ∀ b : Byte, BitVec.ofInt 16 b.toInt = b.signExtend 16 := by decide

end Sys2Proof
end

