-- ==== Sys2Proof/Laws/Ppu.lean ====
section
/-! SUPPORT. The PPU's addresses as arithmetic (61_ppu.md R276 to R278), and what the PPU agent's step can do (R290,
R291, R351): the place it reaches, what it changes there, and what no step of it changes. -/

namespace Sys2Proof.Machine

theorem vramAddr_eq (p : Ppu) : p.vramAddr = p.v.extractLsb' 0 14 := by
  unfold Ppu.vramAddr
  apply BitVec.eq_of_getLsbD_eq
  intro i hi
  interval_cases i <;> simp

theorem statusByte_bits (p : Ppu) (free : Byte) :
    (p.statusByte free).getLsbD 7 = p.vblank ∧ (p.statusByte free).getLsbD 6 = p.sprite0Hit ∧
    (p.statusByte free).getLsbD 5 = p.spriteOverflow := by
  unfold Ppu.statusByte
  generalize free.extractLsb' 0 5 = low
  cases p.vblank <;> cases p.sprite0Hit <;> cases p.spriteOverflow <;> revert low <;> decide

theorem address_and_low (a mask : PpuAddr) (h : mask.toNat < 32) :
    (a &&& mask).toNat = ((a.extractLsb' 0 5) &&& mask.setWidth 5).toNat := by
  have e : (a &&& mask) = ((a.extractLsb' 0 5) &&& mask.setWidth 5).setWidth 14 := by
    apply BitVec.eq_of_getLsbD_eq
    intro i hi
    by_cases hi5 : i < 5
    · interval_cases i <;> simp
    · have hm : mask.getLsbD i = false := by
        rw [← BitVec.testBit_toNat]
        exact Nat.testBit_lt_two_pow (Nat.lt_of_lt_of_le h (Nat.pow_le_pow_right (n := 2) (by omega) (by omega : 5 ≤ i)))
      rw [BitVec.getLsbD_and, hm, Bool.and_false, BitVec.getLsbD_setWidth,
        BitVec.getLsbD_of_ge _ _ (by omega : 5 ≤ i), Bool.and_false]
  rw [e, BitVec.toNat_setWidth, Nat.mod_eq_of_lt]
  have := ((a.extractLsb' 0 5) &&& mask.setWidth 5).isLt
  omega

/-- The palette entry of an address, as arithmetic: four entries are other names (R278). -/
theorem paletteIndex_eq (a : PpuAddr) :
    paletteIndex a =
      if a.toNat % 0x20 = 0x10 ∨ a.toNat % 0x20 = 0x14 ∨ a.toNat % 0x20 = 0x18 ∨ a.toNat % 0x20 = 0x1C then
        a.toNat % 0x20 - 0x10
      else a.toNat % 0x20 := by
  have h13 : (a &&& 0x13 = 0x10) ↔ ((a.extractLsb' 0 5) &&& 0x13 = 0x10) := by
    rw [← BitVec.toNat_inj, ← BitVec.toNat_inj, address_and_low a 0x13 (by decide)]
    rfl
  have hlow : a.toNat % 0x20 = (a.extractLsb' 0 5).toNat := by simp
  unfold paletteIndex
  simp only [h13]
  rw [address_and_low a 0x0F (by decide), address_and_low a 0x1F (by decide), hlow]
  generalize a.extractLsb' 0 5 = low
  revert low
  decide

theorem paletteIndex_lt (a : PpuAddr) : paletteIndex a < Config.paletteSize := by
  rw [paletteIndex_eq]
  unfold Config.paletteSize
  split <;> omega

/-- No palette write lands on an entry that is another name (R278). -/
theorem paletteIndex_ok (a : PpuAddr) : ¬(16 ≤ paletteIndex a ∧ paletteIndex a % 4 = 0) := by
  rw [paletteIndex_eq]
  split <;> omega

theorem nametableIndex_lt (horizontal : Bool) (a : PpuAddr) : nametableIndex horizontal a < Config.nametableSize := by
  unfold nametableIndex nametablePage Config.nametableSize
  split <;> omega

/-- What no step of the PPU agent changes: everything but the PPU's place, its three status flags, the NMI latch, the
MMC3's counter and the draw counter. -/
structure DotFrame (s t : State) : Prop where
  cpu : t.cpu = { s.cpu with nmiPending := t.cpu.nmiPending }
  ppu : t.ppu = { s.ppu with
    scanline := t.ppu.scanline, dot := t.ppu.dot, vblank := t.ppu.vblank
    sprite0Hit := t.ppu.sprite0Hit, spriteOverflow := t.ppu.spriteOverflow }
  mmc3 : t.mmc3 = { s.mmc3 with
    irqCounter := t.mmc3.irqCounter, irqReload := t.mmc3.irqReload, irqPending := t.mmc3.irqPending }
  rest : t = { s with cpu := t.cpu, ppu := t.ppu, mmc3 := t.mmc3, fresh := t.fresh }

theorem DotFrame.refl (s : State) : DotFrame s s := ⟨rfl, rfl, rfl, rfl⟩

theorem DotFrame.trans {s t u : State} (h : DotFrame s t) (h' : DotFrame t u) : DotFrame s u := by
  constructor
  · rw [h'.cpu, h.cpu]
  · rw [h'.ppu, h.ppu]
  · rw [h'.mmc3, h.mmc3]
  · rw [h'.rest, h.rest]

theorem frameEvent_frame (s : State) : DotFrame s s.frameEvent := by
  unfold State.frameEvent
  split
  · exact ⟨rfl, rfl, rfl, rfl⟩
  · split <;> exact ⟨rfl, rfl, rfl, rfl⟩

theorem spriteEvent_frame (s : State) : DotFrame s s.spriteEvent := by
  unfold State.spriteEvent
  split <;> exact ⟨rfl, rfl, rfl, rfl⟩

/-- All the counter's clock can do: some clocks of the MMC3, none included, and perhaps a draw (R351). -/
theorem scanlineClock_eq (s : State) : ∃ k n, s.scanlineClock = { s with mmc3 := s.mmc3.clocks k, fresh := n } := by
  have hnone : s = { s with mmc3 := s.mmc3.clocks 0, fresh := s.fresh } := by rw [Mmc3.clocks_eq]; rfl
  unfold State.scanlineClock
  split
  · split
    · split
      · exact ⟨1, s.fresh, by rw [Mmc3.clocks_eq]; rfl⟩
      · exact ⟨0, s.fresh, hnone⟩
    · split
      · exact ⟨_, _, rfl⟩
      · exact ⟨0, s.fresh, hnone⟩
  · exact ⟨0, s.fresh, hnone⟩

theorem scanlineClock_frame (s : State) : DotFrame s s.scanlineClock := by
  obtain ⟨k, n, h⟩ := scanlineClock_eq s
  rw [h]
  exact ⟨rfl, rfl, rfl, rfl⟩

theorem nextPosition_frame (s : State) : DotFrame s (s.setPpu s.ppu.nextPosition) := by
  unfold Ppu.nextPosition
  split <;> exact ⟨rfl, rfl, rfl, rfl⟩

theorem ppuDot_frame (s : State) : DotFrame s s.ppuDot :=
  (nextPosition_frame s).trans ((frameEvent_frame _).trans ((spriteEvent_frame _).trans (scanlineClock_frame _)))

theorem ppuRun_frame (k : Nat) (s : State) : DotFrame s (State.ppuRun k s) := by
  induction k generalizing s with
  | zero => exact DotFrame.refl s
  | succ k ih => exact (ppuDot_frame s).trans (ih s.ppuDot)

theorem ppuRun_add (j k : Nat) (s : State) : State.ppuRun (j + k) s = State.ppuRun k (State.ppuRun j s) := by
  induction j generalizing s with
  | zero => simp [State.ppuRun]
  | succ j ih =>
    rw [show j + 1 + k = (j + k) + 1 by omega]
    exact ih s.ppuDot

theorem ppuRun_succ (k : Nat) (s : State) : State.ppuRun (k + 1) s = (State.ppuRun k s).ppuDot := by
  rw [ppuRun_add k 1]
  rfl

@[simp] theorem frameEvent_place (s : State) :
    s.frameEvent.ppu.scanline = s.ppu.scanline ∧ s.frameEvent.ppu.dot = s.ppu.dot := by
  unfold State.frameEvent
  split
  · exact ⟨rfl, rfl⟩
  · split <;> exact ⟨rfl, rfl⟩

@[simp] theorem spriteEvent_place (s : State) :
    s.spriteEvent.ppu.scanline = s.ppu.scanline ∧ s.spriteEvent.ppu.dot = s.ppu.dot := by
  unfold State.spriteEvent
  split <;> exact ⟨rfl, rfl⟩

/-- The counter's clock leaves the PPU alone. -/
@[simp] theorem scanlineClock_ppu (s : State) : s.scanlineClock.ppu = s.ppu := by
  obtain ⟨k, n, h⟩ := scanlineClock_eq s
  rw [h]

/-- The place a dot reaches is the next one (R290). -/
theorem ppuDot_place (s : State) :
    s.ppuDot.ppu.scanline = s.ppu.nextPosition.scanline ∧ s.ppuDot.ppu.dot = s.ppu.nextPosition.dot := by
  unfold State.ppuDot
  rw [scanlineClock_ppu, (spriteEvent_place _).1, (spriteEvent_place _).2, (frameEvent_place _).1, (frameEvent_place _).2]
  exact ⟨rfl, rfl⟩

/-- The place in the frame as one number (R290). -/
def Ppu.place (p : Ppu) : Nat := p.scanline * 341 + p.dot

/-- Inside the frame a dot goes one place on, and from the last to the first (R290). -/
theorem ppuDot_inside {s : State} (h : s.ppu.scanline < 262) (h' : s.ppu.dot < 341) :
    s.ppuDot.ppu.scanline < 262 ∧ s.ppuDot.ppu.dot < 341 ∧ s.ppuDot.ppu.place = (s.ppu.place + 1) % 89342 := by
  unfold Ppu.place
  rw [(ppuDot_place s).1, (ppuDot_place s).2]
  unfold Ppu.nextPosition Config.dotsPerScanline Config.scanlinesPerFrame
  split
  · dsimp only
    omega
  · dsimp only
    split <;> omega

theorem ppuRun_inside (k : Nat) {s : State} (h : s.ppu.scanline < 262) (h' : s.ppu.dot < 341) :
    (State.ppuRun k s).ppu.scanline < 262 ∧ (State.ppuRun k s).ppu.dot < 341 ∧
      (State.ppuRun k s).ppu.place = (s.ppu.place + k) % 89342 := by
  induction k generalizing s with
  | zero =>
    refine ⟨h, h', ?_⟩
    simp only [State.ppuRun, Ppu.place]
    omega
  | succ k ih =>
    obtain ⟨h1, h2, h3⟩ := ppuDot_inside h h'
    obtain ⟨k1, k2, k3⟩ := ih h1 h2
    refine ⟨k1, k2, ?_⟩
    simp only [State.ppuRun]
    rw [k3, h3]
    omega

@[simp] theorem scanlineClock_cpu (s : State) : s.scanlineClock.cpu = s.cpu := by
  obtain ⟨k, n, h⟩ := scanlineClock_eq s
  rw [h]

@[simp] theorem spriteEvent_cpu (s : State) : s.spriteEvent.cpu = s.cpu := by
  unfold State.spriteEvent
  split <;> rfl

@[simp] theorem spriteEvent_vblank (s : State) : s.spriteEvent.ppu.vblank = s.ppu.vblank := by
  unfold State.spriteEvent
  split <;> rfl

theorem nextPosition_flags (p : Ppu) :
    p.nextPosition.vblank = p.vblank ∧ p.nextPosition.ctrl = p.ctrl ∧ p.nextPosition.mask = p.mask := by
  unfold Ppu.nextPosition
  split <;> exact ⟨rfl, rfl, rfl⟩

theorem frameEvent_vblank (s : State) :
    s.frameEvent.ppu.vblank = if s.ppu.scanline = 241 ∧ s.ppu.dot = 1 then true
      else if s.ppu.scanline = 261 ∧ s.ppu.dot = 1 then false else s.ppu.vblank := by
  unfold State.frameEvent
  split
  · rfl
  · split <;> rfl

theorem frameEvent_nmiPending (s : State) :
    s.frameEvent.cpu.nmiPending =
      (s.cpu.nmiPending || (decide (s.ppu.scanline = 241 ∧ s.ppu.dot = 1) && s.ppu.ctrl.getLsbD 7 && !s.ppu.vblank)) := by
  unfold State.frameEvent
  split
  · next h =>
    simp only [State.setPpuNmi, State.setNmiPending, State.setPpu, Ppu.nmiLine, h]
    cases s.ppu.vblank <;> simp
  · next h =>
    have hcpu : (if s.ppu.scanline = 261 ∧ s.ppu.dot = 1 then
        s.setPpu { s.ppu with vblank := false, sprite0Hit := false, spriteOverflow := false } else s).cpu = s.cpu := by
      split <;> rfl
    rw [hcpu]
    simp [h]

/-- What a dot does to `vblank`: set on reaching (241, 1), cleared on reaching (261, 1) (R291). -/
theorem ppuDot_vblank (s : State) :
    s.ppuDot.ppu.vblank =
      if s.ppuDot.ppu.scanline = 241 ∧ s.ppuDot.ppu.dot = 1 then true
      else if s.ppuDot.ppu.scanline = 261 ∧ s.ppuDot.ppu.dot = 1 then false else s.ppu.vblank := by
  rw [(ppuDot_place s).1, (ppuDot_place s).2, ← (nextPosition_flags s.ppu).1]
  unfold State.ppuDot
  rw [scanlineClock_ppu, spriteEvent_vblank, frameEvent_vblank]
  rfl

/-- What a dot does to the NMI latch: the 0-to-1 transition of the NMI output sets it (R227, R291). -/
theorem ppuDot_nmiPending (s : State) :
    s.ppuDot.cpu.nmiPending =
      (s.cpu.nmiPending || (decide (s.ppuDot.ppu.scanline = 241 ∧ s.ppuDot.ppu.dot = 1) && s.ppu.ctrl.getLsbD 7
        && !s.ppu.vblank)) := by
  rw [(ppuDot_place s).1, (ppuDot_place s).2, ← (nextPosition_flags s.ppu).1, ← (nextPosition_flags s.ppu).2.1]
  unfold State.ppuDot
  rw [scanlineClock_cpu, spriteEvent_cpu, frameEvent_nmiPending]
  rfl

/-- What no event of the PPU agent but its clock changes: the MMC3, PPUCTRL and PPUMASK. -/
theorem beforeClock_same (s : State) :
    let t := (s.setPpu s.ppu.nextPosition).frameEvent.spriteEvent
    t.mmc3 = s.mmc3 ∧ t.ppu.ctrl = s.ppu.ctrl ∧ t.ppu.mask = s.ppu.mask ∧
      t.ppu.scanline = s.ppu.nextPosition.scanline ∧ t.ppu.dot = s.ppu.nextPosition.dot := by
  have hs : ∀ u : State, u.spriteEvent.mmc3 = u.mmc3 ∧ u.spriteEvent.ppu.ctrl = u.ppu.ctrl ∧
      u.spriteEvent.ppu.mask = u.ppu.mask := by
    intro u
    unfold State.spriteEvent
    split <;> exact ⟨rfl, rfl, rfl⟩
  have hf : ∀ u : State, u.frameEvent.mmc3 = u.mmc3 ∧ u.frameEvent.ppu.ctrl = u.ppu.ctrl ∧
      u.frameEvent.ppu.mask = u.ppu.mask := by
    intro u
    unfold State.frameEvent
    split
    · exact ⟨rfl, rfl, rfl⟩
    · split <;> exact ⟨rfl, rfl, rfl⟩
  have hn := nextPosition_flags s.ppu
  dsimp only
  rw [(hs _).1, (hs _).2.1, (hs _).2.2, (hf _).1, (hf _).2.1, (hf _).2.2, (spriteEvent_place _).1, (spriteEvent_place _).2,
    (frameEvent_place _).1, (frameEvent_place _).2]
  exact ⟨rfl, hn.2.1, hn.2.2, rfl, rfl⟩

/-- With rendering off no dot clocks the MMC3 (R291). -/
theorem ppuDot_mmc3_off {s : State} (h : s.ppu.rendering = false) : s.ppuDot.mmc3 = s.mmc3 := by
  obtain ⟨h1, -, h3, -, -⟩ := beforeClock_same s
  have hr : (s.setPpu s.ppu.nextPosition).frameEvent.spriteEvent.ppu.rendering = false := by
    unfold Ppu.rendering at h ⊢
    rw [h3]
    exact h
  unfold State.ppuDot State.scanlineClock
  rw [if_neg (by rw [hr]; simp), h1]

/-- With rendering on in the standard pattern tables a dot clocks the MMC3 at dot 260 of scanlines 0 to 239 and 261, and
nowhere else (R351). -/
theorem ppuDot_mmc3_standard {s : State} (h : s.ppu.rendering = true) (h' : s.ppu.standardPatterns = true) :
    s.ppuDot.mmc3 =
      if s.ppuDot.ppu.dot = 260 ∧ (s.ppuDot.ppu.scanline ≤ 239 ∨ s.ppuDot.ppu.scanline = 261) then s.mmc3.clock
      else s.mmc3 := by
  obtain ⟨h1, h2, h3, h4, h5⟩ := beforeClock_same s
  have hr : (s.setPpu s.ppu.nextPosition).frameEvent.spriteEvent.ppu.rendering = true := by
    unfold Ppu.rendering at h ⊢
    rw [h3]
    exact h
  have hp : (s.setPpu s.ppu.nextPosition).frameEvent.spriteEvent.ppu.standardPatterns = true := by
    unfold Ppu.standardPatterns at h' ⊢
    rw [h2]
    exact h'
  rw [(ppuDot_place s).1, (ppuDot_place s).2, ← h4, ← h5]
  unfold State.ppuDot State.scanlineClock
  rw [if_pos hr, if_pos hp]
  simp only [Ppu.atStandardClock, Bool.and_eq_true, Bool.or_eq_true, decide_eq_true_eq]
  split
  · simp only [State.setMmc3_mmc3, h1]
  · exact h1

/-- Rendering stays on or off from dot to dot: only the program writes PPUMASK and PPUCTRL. -/
theorem ppuRun_registers (k : Nat) (s : State) :
    (State.ppuRun k s).ppu.ctrl = s.ppu.ctrl ∧ (State.ppuRun k s).ppu.mask = s.ppu.mask := by
  rw [(ppuRun_frame k s).ppu]
  exact ⟨rfl, rfl⟩

end Sys2Proof.Machine
end

