-- ==== Sys2Proof/Laws/Flags.lean ====
section
/-! SUPPORT. Laws of the flag computations: the status byte as R14 writes it, the carry and overflow of ADC and SBC as
comparisons of exact sums (43_arithmetic.md R146, R147), and the shift results as arithmetic (44_logic_shift.md). -/

namespace Sys2Proof.Machine

/-- The concatenation of R14 is the model's status byte. -/
theorem statusImage_eq : ∀ (r : Cpu) (b : Bool), statusImage r b = r.pByte b := by
  rintro ⟨a, x, y, sp, pc, n, v, d, i, z, c, p⟩ b
  cases n <;> cases v <;> cases d <;> cases i <;> cases z <;> cases c <;> cases b <;> simp [statusImage, Cpu.pByte]

theorem byte_sign : ∀ b : Byte, b.getLsbD 7 = decide (128 ≤ b.toNat) := by decide

theorem byte_sign_mask : ∀ b : Byte, (b &&& 0x80 ≠ 0) ↔ b.getLsbD 7 = true := by decide

theorem byte_toInt (b : Byte) : b.toInt = if 128 ≤ b.toNat then (b.toNat : Int) - 256 else b.toNat := by
  rw [BitVec.toInt_eq_toNat_cond]
  split <;> split <;> omega

theorem byte_not_toNat : ∀ b : Byte, (b ^^^ 0xFF).toNat = 255 - b.toNat := by decide

theorem byte_not_toInt (b : Byte) : (b ^^^ 0xFF).toInt = -1 - b.toInt := by
  have hb := b.isLt
  rw [byte_toInt, byte_toInt, byte_not_toNat]
  split <;> split <;> omega

/-- V of ADC is the overflow of the signed sum (R146). -/
theorem addOverflow_eq (a m : Byte) (c : Bool) :
    addOverflow a m c = decide (a.toInt + m.toInt + c.toNat < -128 ∨ 127 < a.toInt + m.toInt + c.toNat) := by
  unfold addOverflow
  apply decide_eq_decide.mpr
  rw [byte_sign_mask, BitVec.getLsbD_and, BitVec.getLsbD_xor, BitVec.getLsbD_xor, byte_sign, byte_sign, byte_sign,
    byte_toInt, byte_toInt]
  have ha := a.isLt
  have hm := m.isLt
  have hr : (addResult a m c).toNat = (a.toNat + m.toNat + c.toNat) % 256 := by simp [addResult, addSum]
  have hc : c.toNat ≤ 1 := by cases c <;> decide
  rw [hr]
  generalize c.toNat = k at hc ⊢
  generalize hx : a.toNat = x at ha ⊢
  generalize hy : m.toNat = y at hm ⊢
  by_cases h1 : 128 ≤ x <;> by_cases h2 : 128 ≤ y <;> by_cases h3 : 128 ≤ (x + y + k) % 256 <;>
    simp [h1, h2, h3] <;> omega

/-- The result of SBC: `A - m - (1 - C)` modulo 256 (R147). -/
theorem subResult_eq (a m : Byte) (c : Bool) :
    addResult a (m ^^^ 0xFF) c = a - m - BitVec.ofNat 8 (if c then 0 else 1) := by
  apply BitVec.eq_of_toNat_eq
  have ha := a.isLt
  have hm := m.isLt
  have hn := byte_not_toNat m
  generalize m ^^^ 0xFF = m' at hn ⊢
  cases c <;> simp [addResult, addSum, hn] <;> omega

/-- C of SBC: no borrow (R147). -/
theorem subCarry_eq (a m : Byte) (c : Bool) :
    addCarry a (m ^^^ 0xFF) c = decide (m.toNat + (if c then 0 else 1) ≤ a.toNat) := by
  have ha := a.isLt
  have hm := m.isLt
  unfold addCarry addSum
  apply decide_eq_decide.mpr
  rw [byte_not_toNat]
  cases c <;> simp <;> omega

/-- V of SBC is the overflow of the signed difference (R147). -/
theorem subOverflow_eq (a m : Byte) (c : Bool) :
    addOverflow a (m ^^^ 0xFF) c =
      decide (a.toInt - m.toInt - (if c then 0 else 1) < -128 ∨ 127 < a.toInt - m.toInt - (if c then 0 else 1)) := by
  rw [addOverflow_eq, byte_not_toInt]
  apply decide_eq_decide.mpr
  cases c <;> simp <;> omega

theorem asl_result : ∀ v : Byte, v <<< 1 = BitVec.ofNat 8 (v.toNat * 2) := by decide

theorem lsr_result : ∀ v : Byte, v >>> 1 = BitVec.ofNat 8 (v.toNat / 2) := by decide

theorem rol_result (v : Byte) (c : Bool) : rolResult v c = BitVec.ofNat 8 (v.toNat * 2 + c.toNat) := by
  cases c <;> revert v <;> decide

theorem ror_result (v : Byte) (c : Bool) : rorResult v c = BitVec.ofNat 8 (v.toNat / 2 + c.toNat * 128) := by
  cases c <;> revert v <;> decide

end Sys2Proof.Machine
end

