-- ==== Sys2Proof/Laws/Stack.lean ====
section
/-! SUPPORT. What the stack operations, the exception entry and the return from it do (10_state.md R12, 60_exceptions.md
R222 to R226, 46_flags_system.md R211): each once, as one record update. -/

namespace Sys2Proof.Machine

theorem stackIndex_ne (sp : Byte) {j k : Nat} (h : j % 256 ≠ k % 256) :
    stackIndex (sp - BitVec.ofNat 8 j) ≠ stackIndex (sp - BitVec.ofNat 8 k) := by
  unfold stackIndex
  have := sp.isLt
  simp only [BitVec.toNat_sub, BitVec.toNat_ofNat]
  omega

theorem stackIndex_sub_one (sp : Byte) : stackIndex (sp - 1) ≠ stackIndex sp := by
  unfold stackIndex
  bv_omega

theorem stackIndex_sub_two (sp : Byte) : stackIndex (sp - 2) ≠ stackIndex sp ∧ stackIndex (sp - 2) ≠ stackIndex (sp - 1) := by
  unfold stackIndex
  constructor <;> bv_omega

theorem sub_one_one (b : Byte) : b - 1 - 1 = b - 2 := by bv_omega
theorem sub_two_one (b : Byte) : b - 2 - 1 = b - 3 := by bv_omega
theorem add_one_one (b : Byte) : b + 1 + 1 = b + 2 := by bv_omega
theorem add_two_one (b : Byte) : b + 2 + 1 = b + 3 := by bv_omega
@[simp] theorem sub_one_add_one (b : Byte) : b - 1 + 1 = b := by bv_omega
@[simp] theorem sub_three_add_one (b : Byte) : b - 3 + 1 = b - 2 := by bv_omega
@[simp] theorem sub_three_add_two (b : Byte) : b - 3 + 2 = b - 1 := by bv_omega
@[simp] theorem sub_three_add_three (b : Byte) : b - 3 + 3 = b := by bv_omega
@[simp] theorem sub_two_add_one (b : Byte) : b - 2 + 1 = b - 1 := by bv_omega
@[simp] theorem sub_two_add_two (b : Byte) : b - 2 + 2 = b := by bv_omega

/-- `Push(v)` (R12). -/
theorem push_eq (s : State) (v : Byte) :
    s.push v = { s with ram := s.ram.write (stackIndex s.cpu.sp) v, cpu := { s.cpu with sp := s.cpu.sp - 1 } } := rfl

/-- A vector's word: two ROM bytes of the bank fixed at $E000, whatever state the MMC3 is in (R31, R49). -/
theorem vector_eq (s : State) {vec : Addr} (h : 0xE000 ≤ vec.toNat) (h' : vec.toNat ≠ 0xFFFF) :
    s.vector vec = wordOf (s.prg.read (0x3E000 + (vec.toNat - 0xE000))) (s.prg.read (0x3E000 + (vec.toNat + 1 - 0xE000))) := by
  have hlt := vec.isLt
  have h1 : (vec + 1).toNat = vec.toNat + 1 := by bv_omega
  unfold State.vector State.prgByte
  rw [Mmc3.prgOffset_fixed _ h, Mmc3.prgOffset_fixed _ (by omega), h1]

theorem vector_nmi (s : State) : s.vector 0xFFFA = wordOf (s.prg.read 0x3FFFA) (s.prg.read 0x3FFFB) :=
  vector_eq s (by decide) (by decide)

theorem vector_reset (s : State) : s.vector 0xFFFC = wordOf (s.prg.read 0x3FFFC) (s.prg.read 0x3FFFD) :=
  vector_eq s (by decide) (by decide)

theorem vector_irq (s : State) : s.vector 0xFFFE = wordOf (s.prg.read 0x3FFFE) (s.prg.read 0x3FFFF) :=
  vector_eq s (by decide) (by decide)

/-- The RAM after three pushes. -/
def pushedThree (m : Memory) (sp first second third : Byte) : Memory :=
  ((m.write (stackIndex sp) first).write (stackIndex (sp - 1)) second).write (stackIndex (sp - 2)) third

theorem pushedThree_first (m : Memory) (sp a b c : Byte) : (pushedThree m sp a b c).read (stackIndex sp) = a := by
  unfold pushedThree
  rw [Memory.read_write_other _ _ (stackIndex_sub_two sp).1.symm, Memory.read_write_other _ _ (stackIndex_sub_one sp).symm,
    Memory.read_write_same]

theorem pushedThree_second (m : Memory) (sp a b c : Byte) : (pushedThree m sp a b c).read (stackIndex (sp - 1)) = b := by
  unfold pushedThree
  rw [Memory.read_write_other _ _ (stackIndex_sub_two sp).2.symm, Memory.read_write_same]

theorem pushedThree_third (m : Memory) (sp a b c : Byte) : (pushedThree m sp a b c).read (stackIndex (sp - 2)) = c := by
  unfold pushedThree
  rw [Memory.read_write_same]

theorem pushedThree_other (m : Memory) (sp a b c : Byte) {k : Nat} (h1 : k ≠ stackIndex sp)
    (h2 : k ≠ stackIndex (sp - 1)) (h3 : k ≠ stackIndex (sp - 2)) : (pushedThree m sp a b c).read k = m.read k := by
  unfold pushedThree
  rw [Memory.read_write_other _ _ h3, Memory.read_write_other _ _ h2, Memory.read_write_other _ _ h1]

/-- `Enter(ret, b, vec)` (R222): all it does. -/
theorem enter_eq (s : State) (ret : Addr) (b : Bool) (vec : Addr) :
    s.enter ret b vec = { s with
      cpu := { s.cpu with sp := s.cpu.sp - 3, i := true, pc := s.vector vec }
      ram := pushedThree s.ram s.cpu.sp (hi ret) (lo ret) (s.cpu.pByte b) } := by
  simp only [State.enter, push_eq, State.setI, State.setPc, State.vector, State.prgByte, Cpu.pByte, pushedThree,
    sub_one_one, sub_two_one]

/-- RTI's return (R211): all it does. -/
theorem returnFromInterrupt_eq (s : State) :
    s.returnFromInterrupt =
      let flags := s.ram.read (stackIndex (s.cpu.sp + 1))
      { s with cpu := { s.cpu with
        n := flags.getLsbD 7, v := flags.getLsbD 6, d := flags.getLsbD 3, i := flags.getLsbD 2
        z := flags.getLsbD 1, c := flags.getLsbD 0, sp := s.cpu.sp + 3
        pc := wordOf (s.ram.read (stackIndex (s.cpu.sp + 2))) (s.ram.read (stackIndex (s.cpu.sp + 3))) } } := by
  simp only [State.returnFromInterrupt, State.pulled, State.pullByte, State.setP, State.setSp, State.setPc, add_one_one,
    add_two_one]

/-- RTI right after an entry gives back PC, S and the six flags; the stack bytes stay as pushed. -/
theorem returnFromInterrupt_enter (s : State) (ret : Addr) (b : Bool) (vec : Addr) :
    (s.enter ret b vec).returnFromInterrupt = { s with
      cpu := { s.cpu with pc := ret }, ram := pushedThree s.ram s.cpu.sp (hi ret) (lo ret) (s.cpu.pByte b) } := by
  rw [enter_eq, returnFromInterrupt_eq]
  simp only [sub_three_add_one, sub_three_add_two, sub_three_add_three, pushedThree_first, pushedThree_second,
    pushedThree_third, pByte_getLsbD_7, pByte_getLsbD_6, pByte_getLsbD_3, pByte_getLsbD_2, pByte_getLsbD_1,
    pByte_getLsbD_0, wordOf_lo_hi]

end Sys2Proof.Machine
end

