-- ==== Sys2Proof/Laws/Inv.lean ====
section
/-! SUPPORT. Every memory operation keeps the canonical form of the storages and the rest of the invariant `State.inv`:
reads, writes, pushes, the DMA engine's byte, the PPU agent's dots. The storages of the reset state have that form. -/

namespace Sys2Proof.Machine

/-- The invariant as a conjunction of propositions. -/
theorem inv_iff (s : State) :
    s.inv = true ↔
      s.ram.wf Config.ramSize = true ∧ s.wram.wf Config.wramSize = true ∧ s.prg.wf Config.prgSize = true ∧
      s.chr.wf Config.chrSize = true ∧ s.ppu.nametables.wf Config.nametableSize = true ∧
      s.ppu.palette.wf Config.paletteSize = true ∧ s.ppu.oam.wf Config.oamSize = true ∧
      paletteOk s.ppu.palette = true ∧ s.ppu.frameOk = true ∧ s.ppu.vblanksSeen ≤ 2 ∧
      (s.dma.active = true → dmaPageRefused s.dma.page = false) ∧
      (s.apu.frameIrq = true → s.apu.frameIrqInhibit = false) ∧
      (s.apu.dmcIrq = true → s.apu.dmcIrqEnabled = true) := by
  have imp : ∀ a b : Bool, (!a || b) = true ↔ (a = true → b = true) := by decide
  simp only [State.inv, State.storagesWf, Bool.and_eq_true, decide_eq_true_eq, imp, Bool.not_eq_true', and_assoc]

theorem frameOk_iff (p : Ppu) :
    p.frameOk = true ↔ p.scanline < 262 ∧ p.dot < 341 ∧ (p.vblank = true → 82182 ≤ p.place ∧ p.place ≤ 89001) := by
  have imp : ∀ a b : Bool, (!a || b) = true ↔ (a = true → b = true) := by decide
  simp only [Ppu.frameOk, Bool.and_eq_true, decide_eq_true_eq, imp, and_assoc]
  rfl

/-- The storages of the reset state list nothing, so they are in canonical form. -/
theorem reset_storagesWf : State.reset.storagesWf = true := rfl

theorem paletteOk_erase {m : Memory} (k : Nat) (h : paletteOk m = true) : paletteOk (Memory.erase m k) = true := by
  induction m with
  | nil => rfl
  | cons cell rest ih =>
    obtain ⟨a, b⟩ := cell
    simp only [paletteOk, List.all_cons, Bool.and_eq_true] at h
    by_cases ha : a = k
    · simpa only [Memory.erase, ha, if_true] using ih h.2
    · simp only [Memory.erase, ha, if_false, paletteOk, List.all_cons, Bool.and_eq_true]
      exact ⟨h.1, ih h.2⟩

theorem paletteOk_insert {m : Memory} (k : Nat) (v : Byte) (hv : v.toNat < 64) (hk : ¬(16 ≤ k ∧ k % 4 = 0))
    (h : paletteOk m = true) : paletteOk (Memory.insert m k v) = true := by
  have cellOk : (decide (v.toNat < 64) && !(decide (16 ≤ k) && decide (k % 4 = 0))) = true := by
    have hb : (decide (16 ≤ k) && decide (k % 4 = 0)) = false := by
      rw [Bool.and_eq_false_iff, decide_eq_false_iff_not, decide_eq_false_iff_not]
      omega
    rw [hb, decide_eq_true hv]
    rfl
  induction m with
  | nil => simpa only [Memory.insert, paletteOk, List.all_cons, List.all_nil, Bool.and_true] using cellOk
  | cons cell rest ih =>
    obtain ⟨a, b⟩ := cell
    by_cases hlt : k < a
    · simp only [Memory.insert, hlt, if_true, paletteOk, List.all_cons, Bool.and_eq_true] at h ⊢
      exact ⟨by simpa using cellOk, h⟩
    · simp only [Memory.insert, hlt, if_false, paletteOk, List.all_cons, Bool.and_eq_true] at h ⊢
      exact ⟨h.1, ih h.2⟩

/-- A palette write keeps the palette's form: six bits, and never an entry that is another name (R278). -/
theorem paletteOk_write {m : Memory} (a : PpuAddr) (d : Byte) (h : paletteOk m = true) :
    paletteOk (m.write (paletteIndex a) (d &&& 0x3F)) = true := by
  have six : ∀ b : Byte, (b &&& 0x3F).toNat < 64 := by decide
  unfold Memory.write
  split
  · exact paletteOk_erase _ h
  · exact paletteOk_insert _ _ (six d) (paletteIndex_ok a) (paletteOk_erase _ h)

/-- A read keeps the invariant. -/
theorem memRead_inv {a : Addr} {s t : State} {b : Byte} (h : memRead a s = .ok (b, t)) (hs : s.inv = true) :
    t.inv = true := by
  have f := memRead_frame h
  rw [inv_iff] at hs ⊢
  obtain ⟨h1, h2, h3, h4, h5, h6, h7, h8, h9, h10, h11, h12, h13⟩ := hs
  have hinhibit : t.apu.frameIrqInhibit = s.apu.frameIrqInhibit :=
    (congrArg Apu.frameIrqInhibit f.apu :)
  have hdmc : t.apu.dmcIrq = s.apu.dmcIrq :=
    (congrArg Apu.dmcIrq f.apu :)
  have hdmcEnabled : t.apu.dmcIrqEnabled = s.apu.dmcIrqEnabled :=
    (congrArg Apu.dmcIrqEnabled f.apu :)
  rw [frameOk_iff] at h9 ⊢
  unfold Ppu.place at h9 ⊢
  rw [f.ram, f.wram, f.prg, f.chr, f.nametables, f.palette, f.oam, f.scanline, f.dot, f.dma, hinhibit, hdmc, hdmcEnabled]
  exact ⟨h1, h2, h3, h4, h5, h6, h7, h8, ⟨h9.1, h9.2.1, fun e => h9.2.2 (f.vblank e)⟩, f.vblanksSeen h10, h11,
    fun e => h12 (f.frameIrq e), h13⟩

/-- What a PPU write that keeps its storages, its place and its flags keeps: the invariant. -/
theorem setPpu_inv {s : State} {p : Ppu} (hs : s.inv = true) (hn : p.nametables = s.ppu.nametables)
    (hp : p.palette = s.ppu.palette) (ho : p.oam.wf Config.oamSize = true) (hl : p.scanline = s.ppu.scanline)
    (hd : p.dot = s.ppu.dot) (hv : p.vblank = s.ppu.vblank) (hw : p.vblanksSeen = s.ppu.vblanksSeen) :
    (s.setPpu p).inv = true := by
  rw [inv_iff] at hs ⊢
  obtain ⟨h1, h2, h3, h4, h5, h6, h7, h8, h9, h10, h11, h12, h13⟩ := hs
  rw [frameOk_iff] at h9
  unfold Ppu.place at h9
  simp only [State.setPpu_ram, State.setPpu_wram, State.setPpu_prg, State.setPpu_chr, State.setPpu_ppu, State.setPpu_dma,
    State.setPpu_apu, frameOk_iff, Ppu.place, hn, hp, hl, hd, hv, hw]
  exact ⟨h1, h2, h3, h4, h5, h6, ho, h8, h9, h10, h11, h12, h13⟩

theorem inv_oam {s : State} (hs : s.inv = true) : s.ppu.oam.wf Config.oamSize = true :=
  ((inv_iff s).1 hs).2.2.2.2.2.2.1

theorem writeWarm_inv {s : State} {p : Ppu} (hs : s.inv = true) (hn : p.nametables = s.ppu.nametables)
    (hp : p.palette = s.ppu.palette) (ho : p.oam = s.ppu.oam) (hl : p.scanline = s.ppu.scanline)
    (hd : p.dot = s.ppu.dot) (hv : p.vblank = s.ppu.vblank) (hw : p.vblanksSeen = s.ppu.vblanksSeen) :
    (s.writeWarm p).inv = true := by
  unfold State.writeWarm
  split
  · have ho' : p.oam.wf Config.oamSize = true := by
      rw [ho]
      exact inv_oam hs
    exact setPpu_inv (s := s) (p := p) hs hn hp ho' hl hd hv hw
  · exact setPpu_inv (p := Ppu.applyIf (Config.warmUpApplies s.fresh) p s.ppu) hs rfl rfl (inv_oam hs) rfl rfl rfl rfl

theorem ppuWrite_inv {s : State} (a : PpuAddr) (d : Byte) (hs : s.inv = true) : (s.ppuWrite a d).inv = true := by
  unfold State.ppuWrite
  split
  · exact hs
  rw [inv_iff] at hs
  obtain ⟨h1, h2, h3, h4, h5, h6, h7, h8, h9, h10, h11, h12, h13⟩ := hs
  split
  · rw [inv_iff]
    exact ⟨h1, h2, h3, h4, Memory.wf_write _ _ (nametableIndex_lt _ _) h5, h6, h7, h8, h9, h10, h11, h12, h13⟩
  · rw [inv_iff]
    exact ⟨h1, h2, h3, h4, h5, Memory.wf_write _ _ (paletteIndex_lt _) h6, h7, paletteOk_write _ _ h8, h9, h10, h11, h12,
      h13⟩

theorem writePpuReg_inv {s t : State} {reg : Nat} {d : Byte} (h : s.writePpuReg reg d = .ok t) (hs : s.inv = true) :
    t.inv = true := by
  have scroll : ∀ p : Ppu, (p.writeScroll d).nametables = p.nametables ∧ (p.writeScroll d).palette = p.palette ∧
      (p.writeScroll d).oam = p.oam ∧ (p.writeScroll d).scanline = p.scanline ∧ (p.writeScroll d).dot = p.dot ∧
      (p.writeScroll d).vblank = p.vblank ∧ (p.writeScroll d).vblanksSeen = p.vblanksSeen := by
    intro p
    unfold Ppu.writeScroll
    split <;> exact ⟨rfl, rfl, rfl, rfl, rfl, rfl, rfl⟩
  have address : ∀ p : Ppu, (p.writeAddr d).nametables = p.nametables ∧ (p.writeAddr d).palette = p.palette ∧
      (p.writeAddr d).oam = p.oam ∧ (p.writeAddr d).scanline = p.scanline ∧ (p.writeAddr d).dot = p.dot ∧
      (p.writeAddr d).vblank = p.vblank ∧ (p.writeAddr d).vblanksSeen = p.vblanksSeen := by
    intro p
    unfold Ppu.writeAddr
    split <;> exact ⟨rfl, rfl, rfl, rfl, rfl, rfl, rfl⟩
  unfold State.writePpuReg at h
  split at h
  · split at h <;> cases h
    exact writeWarm_inv hs rfl rfl rfl rfl rfl rfl rfl
  · cases h
    exact writeWarm_inv hs rfl rfl rfl rfl rfl rfl rfl
  · cases h
    exact hs
  · cases h
    exact setPpu_inv hs rfl rfl (inv_oam hs) rfl rfl rfl rfl
  · unfold State.writeOamData at h
    split at h <;> cases h
    exact setPpu_inv hs rfl rfl (Memory.wf_write _ _ s.ppu.oamAddr.isLt (inv_oam hs)) rfl rfl rfl rfl
  · cases h
    obtain ⟨e1, e2, e3, e4, e5, e6, e7⟩ := scroll s.ppu
    exact writeWarm_inv hs e1 e2 e3 e4 e5 e6 e7
  · cases h
    obtain ⟨e1, e2, e3, e4, e5, e6, e7⟩ := address s.ppu
    exact writeWarm_inv hs e1 e2 e3 e4 e5 e6 e7
  · unfold State.writePpuData at h
    split at h <;> cases h
    exact setPpu_inv (ppuWrite_inv s.ppu.vramAddr d hs) rfl rfl (inv_oam (ppuWrite_inv s.ppu.vramAddr d hs)) rfl rfl rfl rfl

theorem writeIo_inv {s t : State} {address : Nat} {d : Byte} (h : s.writeIo address d = .ok t) (hs : s.inv = true) :
    t.inv = true := by
  have hs' := (inv_iff s).1 hs
  obtain ⟨h1, h2, h3, h4, h5, h6, h7, h8, h9, h10, h11, h12, h13⟩ := hs'
  unfold State.writeIo at h
  split at h
  · cases h
    rw [inv_iff]
    exact ⟨h1, h2, h3, h4, h5, h6, h7, h8, h9, h10, h11, h12, fun e => by
      simp only [State.setApu_apu, Apu.writeChannel, Apu.record] at e ⊢
      rw [h13 e]
      rfl⟩
  split at h
  · unfold State.startDma at h
    split at h
    · cases h
    · next hp =>
      split at h <;> cases h
      rw [inv_iff]
      exact ⟨h1, h2, h3, h4, h5, h6, h7, h8, h9, h10, fun _ => by simpa using hp, h12, h13⟩
  split at h
  · split at h <;> cases h
    rw [inv_iff]
    exact ⟨h1, h2, h3, h4, h5, h6, h7, h8, h9, h10, h11, h12, fun e => by cases e⟩
  split at h
  · cases h
    exact hs
  split at h
  · cases h
    rw [inv_iff]
    refine ⟨h1, h2, h3, h4, h5, h6, h7, h8, h9, h10, h11, fun e => ?_, h13⟩
    simp only [State.setApu_apu, Apu.writeFrameCounter, Bool.and_eq_true, Bool.not_eq_true'] at e ⊢
    exact e.2
  · cases h
    exact hs

theorem ramIndex_lt (a : Addr) : ramIndex a < Config.ramSize := Nat.mod_lt _ (by decide)

theorem setRam_inv {s : State} {k : Nat} (v : Byte) (hk : k < Config.ramSize) (hs : s.inv = true) :
    (s.setRam (s.ram.write k v)).inv = true := by
  rw [inv_iff] at hs ⊢
  exact ⟨Memory.wf_write _ _ hk hs.1, hs.2⟩

/-- A write keeps the invariant. -/
theorem memWrite_inv {a : Addr} {v : Byte} {s t : State} (h : memWrite a v s = .ok t) (hs : s.inv = true) :
    t.inv = true := by
  unfold memWrite at h
  split at h
  · cases h
    exact setRam_inv v (ramIndex_lt a) hs
  split at h
  · exact writePpuReg_inv h hs
  split at h
  · exact writeIo_inv h hs
  split at h
  · cases h
    exact hs
  split at h
  · next h1 h2 =>
    split at h <;> cases h
    · rw [inv_iff] at hs ⊢
      have hk : a.toNat - 0x6000 < Config.wramSize := by
        unfold Config.wramSize
        omega
      exact ⟨hs.1, Memory.wf_write _ _ hk hs.2.1, hs.2.2⟩
    · exact hs
  · cases h
    exact hs

/-- A change of the CPU's registers keeps the invariant, which says nothing of them. -/
theorem cpu_inv (s : State) (r : Cpu) : ({ s with cpu := r } : State).inv = s.inv := rfl

theorem stackIndex_lt (sp : Byte) : stackIndex sp < Config.ramSize := by
  have := sp.isLt
  unfold stackIndex Config.ramSize
  omega

/-- A push keeps the invariant. -/
theorem push_inv {s : State} (v : Byte) (hs : s.inv = true) : (s.push v).inv = true :=
  setRam_inv v (stackIndex_lt s.cpu.sp) hs

/-- An exception entry keeps the invariant. -/
theorem enter_inv {s : State} (ret : Addr) (b : Bool) (vec : Addr) (hs : s.inv = true) : (s.enter ret b vec).inv = true :=
  push_inv (s := (s.push (hi ret)).push (lo ret)) _ (push_inv _ (push_inv _ hs))

/-- The DMA engine's byte keeps the invariant. -/
theorem dmaStep_inv {s t : State} (h : s.dmaStep = .ok t) (active : s.dma.active = true) (hs : s.inv = true) :
    t.inv = true := by
  unfold State.dmaStep at h
  split at h <;> cases h
  next b s1 hr =>
    have hs1 := memRead_inv hr hs
    have hd := (memRead_frame hr).dma
    rw [inv_iff] at hs1 ⊢
    obtain ⟨h1, h2, h3, h4, h5, h6, h7, h8, h9, h10, h11, h12, h13⟩ := hs1
    refine ⟨h1, h2, h3, h4, h5, h6, Memory.wf_write _ _ s1.ppu.oamAddr.isLt h7, h8, h9, h10, fun _ => h11 ?_, h12, h13⟩
    rw [hd, active]

/-- A dot of the PPU agent keeps the invariant. -/
theorem ppuDot_inv {s : State} (hs : s.inv = true) : s.ppuDot.inv = true := by
  have hf := ppuDot_frame s
  have hp := hf.ppu
  have hr := hf.rest
  have hv := ppuDot_vblank s
  rw [inv_iff] at hs
  obtain ⟨h1, h2, h3, h4, h5, h6, h7, h8, h9, h10, h11, h12, h13⟩ := hs
  rw [frameOk_iff] at h9
  obtain ⟨p1, p2, p3⟩ := ppuDot_inside h9.1 h9.2.1
  have hframe : s.ppuDot.ppu.frameOk = true := by
    rw [frameOk_iff]
    refine ⟨p1, p2, ?_⟩
    rw [hv]
    have hplace : s.ppuDot.ppu.place = s.ppuDot.ppu.scanline * 341 + s.ppuDot.ppu.dot := rfl
    split
    · omega
    · split
      · intro e
        cases e
      · intro e
        have := h9.2.2 e
        omega
  have same : s.ppuDot.ppu.nametables = s.ppu.nametables ∧ s.ppuDot.ppu.palette = s.ppu.palette ∧
      s.ppuDot.ppu.oam = s.ppu.oam ∧ s.ppuDot.ppu.vblanksSeen = s.ppu.vblanksSeen := by
    rw [hp]
    exact ⟨rfl, rfl, rfl, rfl⟩
  have other : s.ppuDot.ram = s.ram ∧ s.ppuDot.wram = s.wram ∧ s.ppuDot.prg = s.prg ∧ s.ppuDot.chr = s.chr ∧
      s.ppuDot.dma = s.dma ∧ s.ppuDot.apu = s.apu := by
    rw [hr]
    exact ⟨rfl, rfl, rfl, rfl, rfl, rfl⟩
  rw [inv_iff, other.1, other.2.1, other.2.2.1, other.2.2.2.1, other.2.2.2.2.1, other.2.2.2.2.2, same.1, same.2.1,
    same.2.2.1, same.2.2.2]
  exact ⟨h1, h2, h3, h4, h5, h6, h7, h8, hframe, h10, h11, h12, h13⟩

theorem ppuRun_inv (k : Nat) {s : State} (hs : s.inv = true) : (State.ppuRun k s).inv = true := by
  induction k generalizing s with
  | zero => exact hs
  | succ k ih => exact ih (ppuDot_inv hs)

/-- Time passing keeps the invariant. -/
theorem elapse_inv {s : State} (inp : HostInput) (n : Nat) (hs : s.inv = true) : (s.elapse inp n).inv = true := by
  unfold State.elapse
  split
  · exact ppuRun_inv _ (s := { s with cycles := s.cycles + n }) hs
  · exact ppuRun_inv _ hs

end Sys2Proof.Machine
end

