-- ==== Sys2Proof/Laws/Exec.lean ====
section
/-! SUPPORT. What an instruction that answers a next state did, once for all 151 of them (40_addressing_modes.md R100): it
wrote CPU registers only, or read the bus, or stored, or read and stored at one address, or pushed. -/

namespace Sys2Proof.Machine

/-- The six shapes of an instruction's effect. -/
inductive ExecShape (i : Instr) (s t : State) : Prop where
  /-- CPU registers alone. -/
  | cpu (hs : storeAddress i s = none) (hp : pushCount i = 0) (ht : t = { s with cpu := t.cpu })
  /-- One bus read, then CPU registers. -/
  | read (hs : storeAddress i s = none) (hp : pushCount i = 0) (a : Addr) (b : Byte) (u : State)
      (hr : memRead a s = .ok (b, u)) (ht : t = { u with cpu := t.cpu })
  /-- The two reads of an indirect jump, then PC. -/
  | pointer (hs : storeAddress i s = none) (hp : pushCount i = 0) (a a' : Addr) (b b' : Byte) (u v : State)
      (hr : memRead a s = .ok (b, u)) (hr' : memRead a' u = .ok (b', v)) (ht : t = { v with cpu := t.cpu })
  /-- One bus write at the instruction's store address. -/
  | store (ea : Addr) (v : Byte) (hs : storeAddress i s = some ea) (hw : memWrite ea v s = .ok t)
  /-- A read and a write at the instruction's store address, with N, Z and C between them. -/
  | modify (ea : Addr) (b v : Byte) (u : State) (n z c : Bool) (hs : storeAddress i s = some ea)
      (hm : modifyRefused ea = false) (hr : memRead ea s = .ok (b, u))
      (hw : memWrite ea v { u with cpu := { u.cpu with n := n, z := z, c := c } } = .ok t)
  /-- Stack bytes and CPU registers. -/
  | push (hs : storeAddress i s = none) (ht : t = { s with cpu := t.cpu, ram := t.ram })
      (hk : ∀ k, (∀ j, j < pushCount i → k ≠ 0x100 + (s.cpu.sp - BitVec.ofNat 8 j).toNat) → t.ram.read k = s.ram.read k)
      (hw : s.ram.wf Config.ramSize = true → t.ram.wf Config.ramSize = true)

theorem onRead_shape {i : Instr} {s t : State} {a : Addr} {effect : State → Byte → State}
    (h : onRead (memRead a s) effect = .next t) (hs : storeAddress i s = none) (hp : pushCount i = 0)
    (he : ∀ u m, effect u m = { u with cpu := (effect u m).cpu }) : ExecShape i s t := by
  unfold onRead at h
  split at h <;> cases h
  next m u hr => exact .read hs hp a m u hr (he u m)

theorem onReadIndexed_shape {i : Instr} {s t : State} {base : Addr} {index : Byte} {effect : State → Byte → State}
    (h : onRead (readIndexed base index s) effect = .next t) (hs : storeAddress i s = none) (hp : pushCount i = 0)
    (he : ∀ u m, effect u m = { u with cpu := (effect u m).cpu }) : ExecShape i s t := by
  unfold readIndexed at h
  split at h
  · cases h
  · exact onRead_shape h hs hp he

theorem onWrite_shape {i : Instr} {s t : State} {ea : Addr} {v : Byte} (h : onWrite (memWrite ea v s) = .next t)
    (hs : storeAddress i s = some ea) : ExecShape i s t := by
  unfold onWrite at h
  split at h <;> cases h
  next hw => exact .store ea v hs hw

theorem onWriteIndexed_shape {i : Instr} {s t : State} {base : Addr} {index v : Byte}
    (h : onWrite (writeIndexed base index v s) = .next t) (hs : storeAddress i s = some (eaIndexed base index)) :
    ExecShape i s t := by
  unfold writeIndexed at h
  split at h
  · cases h
  · exact onWrite_shape h hs

theorem onModify_shape {i : Instr} {s t : State} {ea : Addr} {op : State → Byte → Byte × State}
    (h : onModify op ea s = .next t) (hs : storeAddress i s = some ea)
    (ho : ∀ u m, (op u m).2 = { u with cpu := { u.cpu with n := (op u m).2.cpu.n, z := (op u m).2.cpu.z, c := (op u m).2.cpu.c } }) :
    ExecShape i s t := by
  unfold onModify at h
  split at h
  · cases h
  · next hm =>
    split at h
    · cases h
    · next m u hr =>
      rw [ho u m] at h
      unfold onWrite at h
      split at h <;> cases h
      next hw => exact .modify ea m _ u _ _ _ hs (by simpa using hm) hr hw

theorem readPointer_shape {a : Addr} {s t : State} (h : execJmpInd a s = .next t) : ExecShape (.jmpInd a) s t := by
  unfold execJmpInd readPointer at h
  split at h <;> cases h
  next hp =>
    split at hp
    · cases hp
    · next b u hr =>
      split at hp <;> cases hp
      next b' hr' => exact .pointer rfl rfl _ _ b b' u _ hr hr' rfl

theorem push_read (s : State) (v : Byte) {k : Nat} (h : k ≠ stackIndex s.cpu.sp) : (s.push v).ram.read k = s.ram.read k :=
  Memory.read_write_other _ _ h

theorem push_ram_wf {s : State} (v : Byte) (h : s.ram.wf Config.ramSize = true) :
    (s.push v).ram.wf Config.ramSize = true :=
  Memory.wf_write _ _ (stackIndex_lt _) h

theorem push_one_shape {i : Instr} (s : State) (v : Byte) (hs : storeAddress i s = none) (hp : pushCount i = 1) :
    ExecShape i s (s.push v) := by
  refine .push hs rfl (fun k hk => push_read s v ?_) (push_ram_wf v)
  have h0 := hk 0 (by omega)
  rwa [BitVec.sub_zero] at h0

theorem call_shape (a : Addr) (s : State) :
    ExecShape (.jsr a) s (((s.push (hi (s.cpu.pc - 1))).push (lo (s.cpu.pc - 1))).setPc a) := by
  refine .push rfl rfl (fun k hk => ?_) (fun h => push_ram_wf _ (push_ram_wf _ h))
  have h0 := hk 0 Nat.zero_lt_two
  have h1 := hk 1 Nat.one_lt_two
  rw [BitVec.sub_zero] at h0
  exact (push_read (s.push _) _ h1).trans (push_read s _ h0)

theorem takeBrk_shape (s : State) : ExecShape .brk s s.takeBrk := by
  refine .push rfl rfl (fun k hk => ?_) (fun h => push_ram_wf _ (push_ram_wf _ (push_ram_wf _ h)))
  have h0 := hk 0 (by decide)
  have h1 := hk 1 (by decide)
  have h2 := hk 2 (by decide)
  rw [BitVec.sub_zero] at h0
  unfold State.takeBrk
  rw [enter_eq]
  exact pushedThree_other _ _ _ _ _ h0 h1 h2

theorem branch_shape {i : Instr} {s t : State} {condition : Bool} {disp : Int}
    (h : onBranch condition disp s = .next t) (hs : storeAddress i s = none) (hp : pushCount i = 0) : ExecShape i s t := by
  cases h
  refine .cpu hs hp ?_
  split <;> rfl

theorem brk_shape {s t : State} (h : exec .brk s = .next t) : ExecShape .brk s t :=
  Host.Outcome.next.inj h ▸ takeBrk_shape s

theorem oraIndX_shape (p : Byte) {s t : State} (h : exec (.oraIndX p) s = .next t) : ExecShape (.oraIndX p) s t :=
  onRead_shape h rfl rfl (fun _ _ => rfl)

theorem oraZp_shape (p : Byte) {s t : State} (h : exec (.oraZp p) s = .next t) : ExecShape (.oraZp p) s t :=
  onRead_shape h rfl rfl (fun _ _ => rfl)

theorem aslZp_shape (p : Byte) {s t : State} (h : exec (.aslZp p) s = .next t) : ExecShape (.aslZp p) s t :=
  onModify_shape h rfl (fun _ _ => rfl)

theorem php_shape {s t : State} (h : exec .php s = .next t) : ExecShape .php s t :=
  Host.Outcome.next.inj h ▸ push_one_shape s _ rfl rfl

theorem oraImm_shape (m : Byte) {s t : State} (h : exec (.oraImm m) s = .next t) : ExecShape (.oraImm m) s t :=
  .cpu rfl rfl (Host.Outcome.next.inj h ▸ rfl)

theorem aslAcc_shape {s t : State} (h : exec .aslAcc s = .next t) : ExecShape .aslAcc s t :=
  .cpu rfl rfl (Host.Outcome.next.inj h ▸ rfl)

theorem oraAbs_shape (a : Addr) {s t : State} (h : exec (.oraAbs a) s = .next t) : ExecShape (.oraAbs a) s t :=
  onRead_shape h rfl rfl (fun _ _ => rfl)

theorem aslAbs_shape (a : Addr) {s t : State} (h : exec (.aslAbs a) s = .next t) : ExecShape (.aslAbs a) s t :=
  onModify_shape h rfl (fun _ _ => rfl)

theorem bpl_shape (disp : Int) {s t : State} (h : exec (.bpl disp) s = .next t) : ExecShape (.bpl disp) s t :=
  branch_shape h rfl rfl

theorem oraIndY_shape (p : Byte) {s t : State} (h : exec (.oraIndY p) s = .next t) : ExecShape (.oraIndY p) s t :=
  onReadIndexed_shape h rfl rfl (fun _ _ => rfl)

theorem oraZpX_shape (p : Byte) {s t : State} (h : exec (.oraZpX p) s = .next t) : ExecShape (.oraZpX p) s t :=
  onRead_shape h rfl rfl (fun _ _ => rfl)

theorem aslZpX_shape (p : Byte) {s t : State} (h : exec (.aslZpX p) s = .next t) : ExecShape (.aslZpX p) s t :=
  onModify_shape h rfl (fun _ _ => rfl)

theorem clc_shape {s t : State} (h : exec .clc s = .next t) : ExecShape .clc s t :=
  .cpu rfl rfl (Host.Outcome.next.inj h ▸ rfl)

theorem oraAbsY_shape (a : Addr) {s t : State} (h : exec (.oraAbsY a) s = .next t) : ExecShape (.oraAbsY a) s t :=
  onReadIndexed_shape h rfl rfl (fun _ _ => rfl)

theorem oraAbsX_shape (a : Addr) {s t : State} (h : exec (.oraAbsX a) s = .next t) : ExecShape (.oraAbsX a) s t :=
  onReadIndexed_shape h rfl rfl (fun _ _ => rfl)

theorem aslAbsX_shape (a : Addr) {s t : State} (h : exec (.aslAbsX a) s = .next t) : ExecShape (.aslAbsX a) s t :=
  onModify_shape h rfl (fun _ _ => rfl)

theorem jsr_shape (a : Addr) {s t : State} (h : exec (.jsr a) s = .next t) : ExecShape (.jsr a) s t :=
  Host.Outcome.next.inj h ▸ call_shape a s

theorem andIndX_shape (p : Byte) {s t : State} (h : exec (.andIndX p) s = .next t) : ExecShape (.andIndX p) s t :=
  onRead_shape h rfl rfl (fun _ _ => rfl)

theorem bitZp_shape (p : Byte) {s t : State} (h : exec (.bitZp p) s = .next t) : ExecShape (.bitZp p) s t :=
  onRead_shape h rfl rfl (fun _ _ => rfl)

theorem andZp_shape (p : Byte) {s t : State} (h : exec (.andZp p) s = .next t) : ExecShape (.andZp p) s t :=
  onRead_shape h rfl rfl (fun _ _ => rfl)

theorem rolZp_shape (p : Byte) {s t : State} (h : exec (.rolZp p) s = .next t) : ExecShape (.rolZp p) s t :=
  onModify_shape h rfl (fun _ _ => rfl)

theorem plp_shape {s t : State} (h : exec .plp s = .next t) : ExecShape .plp s t :=
  .cpu rfl rfl (Host.Outcome.next.inj h ▸ rfl)

theorem andImm_shape (m : Byte) {s t : State} (h : exec (.andImm m) s = .next t) : ExecShape (.andImm m) s t :=
  .cpu rfl rfl (Host.Outcome.next.inj h ▸ rfl)

theorem rolAcc_shape {s t : State} (h : exec .rolAcc s = .next t) : ExecShape .rolAcc s t :=
  .cpu rfl rfl (Host.Outcome.next.inj h ▸ rfl)

theorem bitAbs_shape (a : Addr) {s t : State} (h : exec (.bitAbs a) s = .next t) : ExecShape (.bitAbs a) s t :=
  onRead_shape h rfl rfl (fun _ _ => rfl)

theorem andAbs_shape (a : Addr) {s t : State} (h : exec (.andAbs a) s = .next t) : ExecShape (.andAbs a) s t :=
  onRead_shape h rfl rfl (fun _ _ => rfl)

theorem rolAbs_shape (a : Addr) {s t : State} (h : exec (.rolAbs a) s = .next t) : ExecShape (.rolAbs a) s t :=
  onModify_shape h rfl (fun _ _ => rfl)

theorem bmi_shape (disp : Int) {s t : State} (h : exec (.bmi disp) s = .next t) : ExecShape (.bmi disp) s t :=
  branch_shape h rfl rfl

theorem andIndY_shape (p : Byte) {s t : State} (h : exec (.andIndY p) s = .next t) : ExecShape (.andIndY p) s t :=
  onReadIndexed_shape h rfl rfl (fun _ _ => rfl)

theorem andZpX_shape (p : Byte) {s t : State} (h : exec (.andZpX p) s = .next t) : ExecShape (.andZpX p) s t :=
  onRead_shape h rfl rfl (fun _ _ => rfl)

theorem rolZpX_shape (p : Byte) {s t : State} (h : exec (.rolZpX p) s = .next t) : ExecShape (.rolZpX p) s t :=
  onModify_shape h rfl (fun _ _ => rfl)

theorem sec_shape {s t : State} (h : exec .sec s = .next t) : ExecShape .sec s t :=
  .cpu rfl rfl (Host.Outcome.next.inj h ▸ rfl)

theorem andAbsY_shape (a : Addr) {s t : State} (h : exec (.andAbsY a) s = .next t) : ExecShape (.andAbsY a) s t :=
  onReadIndexed_shape h rfl rfl (fun _ _ => rfl)

theorem andAbsX_shape (a : Addr) {s t : State} (h : exec (.andAbsX a) s = .next t) : ExecShape (.andAbsX a) s t :=
  onReadIndexed_shape h rfl rfl (fun _ _ => rfl)

theorem rolAbsX_shape (a : Addr) {s t : State} (h : exec (.rolAbsX a) s = .next t) : ExecShape (.rolAbsX a) s t :=
  onModify_shape h rfl (fun _ _ => rfl)

theorem rti_shape {s t : State} (h : exec .rti s = .next t) : ExecShape .rti s t :=
  .cpu rfl rfl (Host.Outcome.next.inj h ▸ rfl)

theorem eorIndX_shape (p : Byte) {s t : State} (h : exec (.eorIndX p) s = .next t) : ExecShape (.eorIndX p) s t :=
  onRead_shape h rfl rfl (fun _ _ => rfl)

theorem eorZp_shape (p : Byte) {s t : State} (h : exec (.eorZp p) s = .next t) : ExecShape (.eorZp p) s t :=
  onRead_shape h rfl rfl (fun _ _ => rfl)

theorem lsrZp_shape (p : Byte) {s t : State} (h : exec (.lsrZp p) s = .next t) : ExecShape (.lsrZp p) s t :=
  onModify_shape h rfl (fun _ _ => rfl)

theorem pha_shape {s t : State} (h : exec .pha s = .next t) : ExecShape .pha s t :=
  Host.Outcome.next.inj h ▸ push_one_shape s _ rfl rfl

theorem eorImm_shape (m : Byte) {s t : State} (h : exec (.eorImm m) s = .next t) : ExecShape (.eorImm m) s t :=
  .cpu rfl rfl (Host.Outcome.next.inj h ▸ rfl)

theorem lsrAcc_shape {s t : State} (h : exec .lsrAcc s = .next t) : ExecShape .lsrAcc s t :=
  .cpu rfl rfl (Host.Outcome.next.inj h ▸ rfl)

theorem jmpAbs_shape (a : Addr) {s t : State} (h : exec (.jmpAbs a) s = .next t) : ExecShape (.jmpAbs a) s t :=
  .cpu rfl rfl (Host.Outcome.next.inj h ▸ rfl)

theorem eorAbs_shape (a : Addr) {s t : State} (h : exec (.eorAbs a) s = .next t) : ExecShape (.eorAbs a) s t :=
  onRead_shape h rfl rfl (fun _ _ => rfl)

theorem lsrAbs_shape (a : Addr) {s t : State} (h : exec (.lsrAbs a) s = .next t) : ExecShape (.lsrAbs a) s t :=
  onModify_shape h rfl (fun _ _ => rfl)

theorem bvc_shape (disp : Int) {s t : State} (h : exec (.bvc disp) s = .next t) : ExecShape (.bvc disp) s t :=
  branch_shape h rfl rfl

theorem eorIndY_shape (p : Byte) {s t : State} (h : exec (.eorIndY p) s = .next t) : ExecShape (.eorIndY p) s t :=
  onReadIndexed_shape h rfl rfl (fun _ _ => rfl)

theorem eorZpX_shape (p : Byte) {s t : State} (h : exec (.eorZpX p) s = .next t) : ExecShape (.eorZpX p) s t :=
  onRead_shape h rfl rfl (fun _ _ => rfl)

theorem lsrZpX_shape (p : Byte) {s t : State} (h : exec (.lsrZpX p) s = .next t) : ExecShape (.lsrZpX p) s t :=
  onModify_shape h rfl (fun _ _ => rfl)

theorem cli_shape {s t : State} (h : exec .cli s = .next t) : ExecShape .cli s t :=
  .cpu rfl rfl (Host.Outcome.next.inj h ▸ rfl)

theorem eorAbsY_shape (a : Addr) {s t : State} (h : exec (.eorAbsY a) s = .next t) : ExecShape (.eorAbsY a) s t :=
  onReadIndexed_shape h rfl rfl (fun _ _ => rfl)

theorem eorAbsX_shape (a : Addr) {s t : State} (h : exec (.eorAbsX a) s = .next t) : ExecShape (.eorAbsX a) s t :=
  onReadIndexed_shape h rfl rfl (fun _ _ => rfl)

theorem lsrAbsX_shape (a : Addr) {s t : State} (h : exec (.lsrAbsX a) s = .next t) : ExecShape (.lsrAbsX a) s t :=
  onModify_shape h rfl (fun _ _ => rfl)

theorem rts_shape {s t : State} (h : exec .rts s = .next t) : ExecShape .rts s t :=
  .cpu rfl rfl (Host.Outcome.next.inj h ▸ rfl)

theorem adcIndX_shape (p : Byte) {s t : State} (h : exec (.adcIndX p) s = .next t) : ExecShape (.adcIndX p) s t :=
  onRead_shape h rfl rfl (fun _ _ => rfl)

theorem adcZp_shape (p : Byte) {s t : State} (h : exec (.adcZp p) s = .next t) : ExecShape (.adcZp p) s t :=
  onRead_shape h rfl rfl (fun _ _ => rfl)

theorem rorZp_shape (p : Byte) {s t : State} (h : exec (.rorZp p) s = .next t) : ExecShape (.rorZp p) s t :=
  onModify_shape h rfl (fun _ _ => rfl)

theorem pla_shape {s t : State} (h : exec .pla s = .next t) : ExecShape .pla s t :=
  .cpu rfl rfl (Host.Outcome.next.inj h ▸ rfl)

theorem adcImm_shape (m : Byte) {s t : State} (h : exec (.adcImm m) s = .next t) : ExecShape (.adcImm m) s t :=
  .cpu rfl rfl (Host.Outcome.next.inj h ▸ rfl)

theorem rorAcc_shape {s t : State} (h : exec .rorAcc s = .next t) : ExecShape .rorAcc s t :=
  .cpu rfl rfl (Host.Outcome.next.inj h ▸ rfl)

theorem jmpInd_shape (a : Addr) {s t : State} (h : exec (.jmpInd a) s = .next t) : ExecShape (.jmpInd a) s t :=
  readPointer_shape h

theorem adcAbs_shape (a : Addr) {s t : State} (h : exec (.adcAbs a) s = .next t) : ExecShape (.adcAbs a) s t :=
  onRead_shape h rfl rfl (fun _ _ => rfl)

theorem rorAbs_shape (a : Addr) {s t : State} (h : exec (.rorAbs a) s = .next t) : ExecShape (.rorAbs a) s t :=
  onModify_shape h rfl (fun _ _ => rfl)

theorem bvs_shape (disp : Int) {s t : State} (h : exec (.bvs disp) s = .next t) : ExecShape (.bvs disp) s t :=
  branch_shape h rfl rfl

theorem adcIndY_shape (p : Byte) {s t : State} (h : exec (.adcIndY p) s = .next t) : ExecShape (.adcIndY p) s t :=
  onReadIndexed_shape h rfl rfl (fun _ _ => rfl)

theorem adcZpX_shape (p : Byte) {s t : State} (h : exec (.adcZpX p) s = .next t) : ExecShape (.adcZpX p) s t :=
  onRead_shape h rfl rfl (fun _ _ => rfl)

theorem rorZpX_shape (p : Byte) {s t : State} (h : exec (.rorZpX p) s = .next t) : ExecShape (.rorZpX p) s t :=
  onModify_shape h rfl (fun _ _ => rfl)

theorem sei_shape {s t : State} (h : exec .sei s = .next t) : ExecShape .sei s t :=
  .cpu rfl rfl (Host.Outcome.next.inj h ▸ rfl)

theorem adcAbsY_shape (a : Addr) {s t : State} (h : exec (.adcAbsY a) s = .next t) : ExecShape (.adcAbsY a) s t :=
  onReadIndexed_shape h rfl rfl (fun _ _ => rfl)

theorem adcAbsX_shape (a : Addr) {s t : State} (h : exec (.adcAbsX a) s = .next t) : ExecShape (.adcAbsX a) s t :=
  onReadIndexed_shape h rfl rfl (fun _ _ => rfl)

theorem rorAbsX_shape (a : Addr) {s t : State} (h : exec (.rorAbsX a) s = .next t) : ExecShape (.rorAbsX a) s t :=
  onModify_shape h rfl (fun _ _ => rfl)

theorem staIndX_shape (p : Byte) {s t : State} (h : exec (.staIndX p) s = .next t) : ExecShape (.staIndX p) s t :=
  onWrite_shape h rfl

theorem styZp_shape (p : Byte) {s t : State} (h : exec (.styZp p) s = .next t) : ExecShape (.styZp p) s t :=
  onWrite_shape h rfl

theorem staZp_shape (p : Byte) {s t : State} (h : exec (.staZp p) s = .next t) : ExecShape (.staZp p) s t :=
  onWrite_shape h rfl

theorem stxZp_shape (p : Byte) {s t : State} (h : exec (.stxZp p) s = .next t) : ExecShape (.stxZp p) s t :=
  onWrite_shape h rfl

theorem dey_shape {s t : State} (h : exec .dey s = .next t) : ExecShape .dey s t :=
  .cpu rfl rfl (Host.Outcome.next.inj h ▸ rfl)

theorem txa_shape {s t : State} (h : exec .txa s = .next t) : ExecShape .txa s t :=
  .cpu rfl rfl (Host.Outcome.next.inj h ▸ rfl)

theorem styAbs_shape (a : Addr) {s t : State} (h : exec (.styAbs a) s = .next t) : ExecShape (.styAbs a) s t :=
  onWrite_shape h rfl

theorem staAbs_shape (a : Addr) {s t : State} (h : exec (.staAbs a) s = .next t) : ExecShape (.staAbs a) s t :=
  onWrite_shape h rfl

theorem stxAbs_shape (a : Addr) {s t : State} (h : exec (.stxAbs a) s = .next t) : ExecShape (.stxAbs a) s t :=
  onWrite_shape h rfl

theorem bcc_shape (disp : Int) {s t : State} (h : exec (.bcc disp) s = .next t) : ExecShape (.bcc disp) s t :=
  branch_shape h rfl rfl

theorem staIndY_shape (p : Byte) {s t : State} (h : exec (.staIndY p) s = .next t) : ExecShape (.staIndY p) s t :=
  onWriteIndexed_shape h rfl

theorem styZpX_shape (p : Byte) {s t : State} (h : exec (.styZpX p) s = .next t) : ExecShape (.styZpX p) s t :=
  onWrite_shape h rfl

theorem staZpX_shape (p : Byte) {s t : State} (h : exec (.staZpX p) s = .next t) : ExecShape (.staZpX p) s t :=
  onWrite_shape h rfl

theorem stxZpY_shape (p : Byte) {s t : State} (h : exec (.stxZpY p) s = .next t) : ExecShape (.stxZpY p) s t :=
  onWrite_shape h rfl

theorem tya_shape {s t : State} (h : exec .tya s = .next t) : ExecShape .tya s t :=
  .cpu rfl rfl (Host.Outcome.next.inj h ▸ rfl)

theorem staAbsY_shape (a : Addr) {s t : State} (h : exec (.staAbsY a) s = .next t) : ExecShape (.staAbsY a) s t :=
  onWriteIndexed_shape h rfl

theorem txs_shape {s t : State} (h : exec .txs s = .next t) : ExecShape .txs s t :=
  .cpu rfl rfl (Host.Outcome.next.inj h ▸ rfl)

theorem staAbsX_shape (a : Addr) {s t : State} (h : exec (.staAbsX a) s = .next t) : ExecShape (.staAbsX a) s t :=
  onWriteIndexed_shape h rfl

theorem ldyImm_shape (m : Byte) {s t : State} (h : exec (.ldyImm m) s = .next t) : ExecShape (.ldyImm m) s t :=
  .cpu rfl rfl (Host.Outcome.next.inj h ▸ rfl)

theorem ldaIndX_shape (p : Byte) {s t : State} (h : exec (.ldaIndX p) s = .next t) : ExecShape (.ldaIndX p) s t :=
  onRead_shape h rfl rfl (fun _ _ => rfl)

theorem ldxImm_shape (m : Byte) {s t : State} (h : exec (.ldxImm m) s = .next t) : ExecShape (.ldxImm m) s t :=
  .cpu rfl rfl (Host.Outcome.next.inj h ▸ rfl)

theorem ldyZp_shape (p : Byte) {s t : State} (h : exec (.ldyZp p) s = .next t) : ExecShape (.ldyZp p) s t :=
  onRead_shape h rfl rfl (fun _ _ => rfl)

theorem ldaZp_shape (p : Byte) {s t : State} (h : exec (.ldaZp p) s = .next t) : ExecShape (.ldaZp p) s t :=
  onRead_shape h rfl rfl (fun _ _ => rfl)

theorem ldxZp_shape (p : Byte) {s t : State} (h : exec (.ldxZp p) s = .next t) : ExecShape (.ldxZp p) s t :=
  onRead_shape h rfl rfl (fun _ _ => rfl)

theorem tay_shape {s t : State} (h : exec .tay s = .next t) : ExecShape .tay s t :=
  .cpu rfl rfl (Host.Outcome.next.inj h ▸ rfl)

theorem ldaImm_shape (m : Byte) {s t : State} (h : exec (.ldaImm m) s = .next t) : ExecShape (.ldaImm m) s t :=
  .cpu rfl rfl (Host.Outcome.next.inj h ▸ rfl)

theorem tax_shape {s t : State} (h : exec .tax s = .next t) : ExecShape .tax s t :=
  .cpu rfl rfl (Host.Outcome.next.inj h ▸ rfl)

theorem ldyAbs_shape (a : Addr) {s t : State} (h : exec (.ldyAbs a) s = .next t) : ExecShape (.ldyAbs a) s t :=
  onRead_shape h rfl rfl (fun _ _ => rfl)

theorem ldaAbs_shape (a : Addr) {s t : State} (h : exec (.ldaAbs a) s = .next t) : ExecShape (.ldaAbs a) s t :=
  onRead_shape h rfl rfl (fun _ _ => rfl)

theorem ldxAbs_shape (a : Addr) {s t : State} (h : exec (.ldxAbs a) s = .next t) : ExecShape (.ldxAbs a) s t :=
  onRead_shape h rfl rfl (fun _ _ => rfl)

theorem bcs_shape (disp : Int) {s t : State} (h : exec (.bcs disp) s = .next t) : ExecShape (.bcs disp) s t :=
  branch_shape h rfl rfl

theorem ldaIndY_shape (p : Byte) {s t : State} (h : exec (.ldaIndY p) s = .next t) : ExecShape (.ldaIndY p) s t :=
  onReadIndexed_shape h rfl rfl (fun _ _ => rfl)

theorem ldyZpX_shape (p : Byte) {s t : State} (h : exec (.ldyZpX p) s = .next t) : ExecShape (.ldyZpX p) s t :=
  onRead_shape h rfl rfl (fun _ _ => rfl)

theorem ldaZpX_shape (p : Byte) {s t : State} (h : exec (.ldaZpX p) s = .next t) : ExecShape (.ldaZpX p) s t :=
  onRead_shape h rfl rfl (fun _ _ => rfl)

theorem ldxZpY_shape (p : Byte) {s t : State} (h : exec (.ldxZpY p) s = .next t) : ExecShape (.ldxZpY p) s t :=
  onRead_shape h rfl rfl (fun _ _ => rfl)

theorem clv_shape {s t : State} (h : exec .clv s = .next t) : ExecShape .clv s t :=
  .cpu rfl rfl (Host.Outcome.next.inj h ▸ rfl)

theorem ldaAbsY_shape (a : Addr) {s t : State} (h : exec (.ldaAbsY a) s = .next t) : ExecShape (.ldaAbsY a) s t :=
  onReadIndexed_shape h rfl rfl (fun _ _ => rfl)

theorem tsx_shape {s t : State} (h : exec .tsx s = .next t) : ExecShape .tsx s t :=
  .cpu rfl rfl (Host.Outcome.next.inj h ▸ rfl)

theorem ldyAbsX_shape (a : Addr) {s t : State} (h : exec (.ldyAbsX a) s = .next t) : ExecShape (.ldyAbsX a) s t :=
  onReadIndexed_shape h rfl rfl (fun _ _ => rfl)

theorem ldaAbsX_shape (a : Addr) {s t : State} (h : exec (.ldaAbsX a) s = .next t) : ExecShape (.ldaAbsX a) s t :=
  onReadIndexed_shape h rfl rfl (fun _ _ => rfl)

theorem ldxAbsY_shape (a : Addr) {s t : State} (h : exec (.ldxAbsY a) s = .next t) : ExecShape (.ldxAbsY a) s t :=
  onReadIndexed_shape h rfl rfl (fun _ _ => rfl)

theorem cpyImm_shape (m : Byte) {s t : State} (h : exec (.cpyImm m) s = .next t) : ExecShape (.cpyImm m) s t :=
  .cpu rfl rfl (Host.Outcome.next.inj h ▸ rfl)

theorem cmpIndX_shape (p : Byte) {s t : State} (h : exec (.cmpIndX p) s = .next t) : ExecShape (.cmpIndX p) s t :=
  onRead_shape h rfl rfl (fun _ _ => rfl)

theorem cpyZp_shape (p : Byte) {s t : State} (h : exec (.cpyZp p) s = .next t) : ExecShape (.cpyZp p) s t :=
  onRead_shape h rfl rfl (fun _ _ => rfl)

theorem cmpZp_shape (p : Byte) {s t : State} (h : exec (.cmpZp p) s = .next t) : ExecShape (.cmpZp p) s t :=
  onRead_shape h rfl rfl (fun _ _ => rfl)

theorem decZp_shape (p : Byte) {s t : State} (h : exec (.decZp p) s = .next t) : ExecShape (.decZp p) s t :=
  onModify_shape h rfl (fun _ _ => rfl)

theorem iny_shape {s t : State} (h : exec .iny s = .next t) : ExecShape .iny s t :=
  .cpu rfl rfl (Host.Outcome.next.inj h ▸ rfl)

theorem cmpImm_shape (m : Byte) {s t : State} (h : exec (.cmpImm m) s = .next t) : ExecShape (.cmpImm m) s t :=
  .cpu rfl rfl (Host.Outcome.next.inj h ▸ rfl)

theorem dex_shape {s t : State} (h : exec .dex s = .next t) : ExecShape .dex s t :=
  .cpu rfl rfl (Host.Outcome.next.inj h ▸ rfl)

theorem cpyAbs_shape (a : Addr) {s t : State} (h : exec (.cpyAbs a) s = .next t) : ExecShape (.cpyAbs a) s t :=
  onRead_shape h rfl rfl (fun _ _ => rfl)

theorem cmpAbs_shape (a : Addr) {s t : State} (h : exec (.cmpAbs a) s = .next t) : ExecShape (.cmpAbs a) s t :=
  onRead_shape h rfl rfl (fun _ _ => rfl)

theorem decAbs_shape (a : Addr) {s t : State} (h : exec (.decAbs a) s = .next t) : ExecShape (.decAbs a) s t :=
  onModify_shape h rfl (fun _ _ => rfl)

theorem bne_shape (disp : Int) {s t : State} (h : exec (.bne disp) s = .next t) : ExecShape (.bne disp) s t :=
  branch_shape h rfl rfl

theorem cmpIndY_shape (p : Byte) {s t : State} (h : exec (.cmpIndY p) s = .next t) : ExecShape (.cmpIndY p) s t :=
  onReadIndexed_shape h rfl rfl (fun _ _ => rfl)

theorem cmpZpX_shape (p : Byte) {s t : State} (h : exec (.cmpZpX p) s = .next t) : ExecShape (.cmpZpX p) s t :=
  onRead_shape h rfl rfl (fun _ _ => rfl)

theorem decZpX_shape (p : Byte) {s t : State} (h : exec (.decZpX p) s = .next t) : ExecShape (.decZpX p) s t :=
  onModify_shape h rfl (fun _ _ => rfl)

theorem cld_shape {s t : State} (h : exec .cld s = .next t) : ExecShape .cld s t :=
  .cpu rfl rfl (Host.Outcome.next.inj h ▸ rfl)

theorem cmpAbsY_shape (a : Addr) {s t : State} (h : exec (.cmpAbsY a) s = .next t) : ExecShape (.cmpAbsY a) s t :=
  onReadIndexed_shape h rfl rfl (fun _ _ => rfl)

theorem cmpAbsX_shape (a : Addr) {s t : State} (h : exec (.cmpAbsX a) s = .next t) : ExecShape (.cmpAbsX a) s t :=
  onReadIndexed_shape h rfl rfl (fun _ _ => rfl)

theorem decAbsX_shape (a : Addr) {s t : State} (h : exec (.decAbsX a) s = .next t) : ExecShape (.decAbsX a) s t :=
  onModify_shape h rfl (fun _ _ => rfl)

theorem cpxImm_shape (m : Byte) {s t : State} (h : exec (.cpxImm m) s = .next t) : ExecShape (.cpxImm m) s t :=
  .cpu rfl rfl (Host.Outcome.next.inj h ▸ rfl)

theorem sbcIndX_shape (p : Byte) {s t : State} (h : exec (.sbcIndX p) s = .next t) : ExecShape (.sbcIndX p) s t :=
  onRead_shape h rfl rfl (fun _ _ => rfl)

theorem cpxZp_shape (p : Byte) {s t : State} (h : exec (.cpxZp p) s = .next t) : ExecShape (.cpxZp p) s t :=
  onRead_shape h rfl rfl (fun _ _ => rfl)

theorem sbcZp_shape (p : Byte) {s t : State} (h : exec (.sbcZp p) s = .next t) : ExecShape (.sbcZp p) s t :=
  onRead_shape h rfl rfl (fun _ _ => rfl)

theorem incZp_shape (p : Byte) {s t : State} (h : exec (.incZp p) s = .next t) : ExecShape (.incZp p) s t :=
  onModify_shape h rfl (fun _ _ => rfl)

theorem inx_shape {s t : State} (h : exec .inx s = .next t) : ExecShape .inx s t :=
  .cpu rfl rfl (Host.Outcome.next.inj h ▸ rfl)

theorem sbcImm_shape (m : Byte) {s t : State} (h : exec (.sbcImm m) s = .next t) : ExecShape (.sbcImm m) s t :=
  .cpu rfl rfl (Host.Outcome.next.inj h ▸ rfl)

theorem nop_shape {s t : State} (h : exec .nop s = .next t) : ExecShape .nop s t :=
  .cpu rfl rfl (Host.Outcome.next.inj h ▸ rfl)

theorem cpxAbs_shape (a : Addr) {s t : State} (h : exec (.cpxAbs a) s = .next t) : ExecShape (.cpxAbs a) s t :=
  onRead_shape h rfl rfl (fun _ _ => rfl)

theorem sbcAbs_shape (a : Addr) {s t : State} (h : exec (.sbcAbs a) s = .next t) : ExecShape (.sbcAbs a) s t :=
  onRead_shape h rfl rfl (fun _ _ => rfl)

theorem incAbs_shape (a : Addr) {s t : State} (h : exec (.incAbs a) s = .next t) : ExecShape (.incAbs a) s t :=
  onModify_shape h rfl (fun _ _ => rfl)

theorem beq_shape (disp : Int) {s t : State} (h : exec (.beq disp) s = .next t) : ExecShape (.beq disp) s t :=
  branch_shape h rfl rfl

theorem sbcIndY_shape (p : Byte) {s t : State} (h : exec (.sbcIndY p) s = .next t) : ExecShape (.sbcIndY p) s t :=
  onReadIndexed_shape h rfl rfl (fun _ _ => rfl)

theorem sbcZpX_shape (p : Byte) {s t : State} (h : exec (.sbcZpX p) s = .next t) : ExecShape (.sbcZpX p) s t :=
  onRead_shape h rfl rfl (fun _ _ => rfl)

theorem incZpX_shape (p : Byte) {s t : State} (h : exec (.incZpX p) s = .next t) : ExecShape (.incZpX p) s t :=
  onModify_shape h rfl (fun _ _ => rfl)

theorem sed_shape {s t : State} (h : exec .sed s = .next t) : ExecShape .sed s t :=
  .cpu rfl rfl (Host.Outcome.next.inj h ▸ rfl)

theorem sbcAbsY_shape (a : Addr) {s t : State} (h : exec (.sbcAbsY a) s = .next t) : ExecShape (.sbcAbsY a) s t :=
  onReadIndexed_shape h rfl rfl (fun _ _ => rfl)

theorem sbcAbsX_shape (a : Addr) {s t : State} (h : exec (.sbcAbsX a) s = .next t) : ExecShape (.sbcAbsX a) s t :=
  onReadIndexed_shape h rfl rfl (fun _ _ => rfl)

theorem incAbsX_shape (a : Addr) {s t : State} (h : exec (.incAbsX a) s = .next t) : ExecShape (.incAbsX a) s t :=
  onModify_shape h rfl (fun _ _ => rfl)

/-- What an instruction that answers a next state did. -/
theorem exec_shape (i : Instr) (s t : State) (h : exec i s = .next t) : ExecShape i s t :=
  match i, h with
  | .brk, h => brk_shape h
  | .oraIndX _, h => oraIndX_shape _ h
  | .oraZp _, h => oraZp_shape _ h
  | .aslZp _, h => aslZp_shape _ h
  | .php, h => php_shape h
  | .oraImm _, h => oraImm_shape _ h
  | .aslAcc, h => aslAcc_shape h
  | .oraAbs _, h => oraAbs_shape _ h
  | .aslAbs _, h => aslAbs_shape _ h
  | .bpl _, h => bpl_shape _ h
  | .oraIndY _, h => oraIndY_shape _ h
  | .oraZpX _, h => oraZpX_shape _ h
  | .aslZpX _, h => aslZpX_shape _ h
  | .clc, h => clc_shape h
  | .oraAbsY _, h => oraAbsY_shape _ h
  | .oraAbsX _, h => oraAbsX_shape _ h
  | .aslAbsX _, h => aslAbsX_shape _ h
  | .jsr _, h => jsr_shape _ h
  | .andIndX _, h => andIndX_shape _ h
  | .bitZp _, h => bitZp_shape _ h
  | .andZp _, h => andZp_shape _ h
  | .rolZp _, h => rolZp_shape _ h
  | .plp, h => plp_shape h
  | .andImm _, h => andImm_shape _ h
  | .rolAcc, h => rolAcc_shape h
  | .bitAbs _, h => bitAbs_shape _ h
  | .andAbs _, h => andAbs_shape _ h
  | .rolAbs _, h => rolAbs_shape _ h
  | .bmi _, h => bmi_shape _ h
  | .andIndY _, h => andIndY_shape _ h
  | .andZpX _, h => andZpX_shape _ h
  | .rolZpX _, h => rolZpX_shape _ h
  | .sec, h => sec_shape h
  | .andAbsY _, h => andAbsY_shape _ h
  | .andAbsX _, h => andAbsX_shape _ h
  | .rolAbsX _, h => rolAbsX_shape _ h
  | .rti, h => rti_shape h
  | .eorIndX _, h => eorIndX_shape _ h
  | .eorZp _, h => eorZp_shape _ h
  | .lsrZp _, h => lsrZp_shape _ h
  | .pha, h => pha_shape h
  | .eorImm _, h => eorImm_shape _ h
  | .lsrAcc, h => lsrAcc_shape h
  | .jmpAbs _, h => jmpAbs_shape _ h
  | .eorAbs _, h => eorAbs_shape _ h
  | .lsrAbs _, h => lsrAbs_shape _ h
  | .bvc _, h => bvc_shape _ h
  | .eorIndY _, h => eorIndY_shape _ h
  | .eorZpX _, h => eorZpX_shape _ h
  | .lsrZpX _, h => lsrZpX_shape _ h
  | .cli, h => cli_shape h
  | .eorAbsY _, h => eorAbsY_shape _ h
  | .eorAbsX _, h => eorAbsX_shape _ h
  | .lsrAbsX _, h => lsrAbsX_shape _ h
  | .rts, h => rts_shape h
  | .adcIndX _, h => adcIndX_shape _ h
  | .adcZp _, h => adcZp_shape _ h
  | .rorZp _, h => rorZp_shape _ h
  | .pla, h => pla_shape h
  | .adcImm _, h => adcImm_shape _ h
  | .rorAcc, h => rorAcc_shape h
  | .jmpInd _, h => jmpInd_shape _ h
  | .adcAbs _, h => adcAbs_shape _ h
  | .rorAbs _, h => rorAbs_shape _ h
  | .bvs _, h => bvs_shape _ h
  | .adcIndY _, h => adcIndY_shape _ h
  | .adcZpX _, h => adcZpX_shape _ h
  | .rorZpX _, h => rorZpX_shape _ h
  | .sei, h => sei_shape h
  | .adcAbsY _, h => adcAbsY_shape _ h
  | .adcAbsX _, h => adcAbsX_shape _ h
  | .rorAbsX _, h => rorAbsX_shape _ h
  | .staIndX _, h => staIndX_shape _ h
  | .styZp _, h => styZp_shape _ h
  | .staZp _, h => staZp_shape _ h
  | .stxZp _, h => stxZp_shape _ h
  | .dey, h => dey_shape h
  | .txa, h => txa_shape h
  | .styAbs _, h => styAbs_shape _ h
  | .staAbs _, h => staAbs_shape _ h
  | .stxAbs _, h => stxAbs_shape _ h
  | .bcc _, h => bcc_shape _ h
  | .staIndY _, h => staIndY_shape _ h
  | .styZpX _, h => styZpX_shape _ h
  | .staZpX _, h => staZpX_shape _ h
  | .stxZpY _, h => stxZpY_shape _ h
  | .tya, h => tya_shape h
  | .staAbsY _, h => staAbsY_shape _ h
  | .txs, h => txs_shape h
  | .staAbsX _, h => staAbsX_shape _ h
  | .ldyImm _, h => ldyImm_shape _ h
  | .ldaIndX _, h => ldaIndX_shape _ h
  | .ldxImm _, h => ldxImm_shape _ h
  | .ldyZp _, h => ldyZp_shape _ h
  | .ldaZp _, h => ldaZp_shape _ h
  | .ldxZp _, h => ldxZp_shape _ h
  | .tay, h => tay_shape h
  | .ldaImm _, h => ldaImm_shape _ h
  | .tax, h => tax_shape h
  | .ldyAbs _, h => ldyAbs_shape _ h
  | .ldaAbs _, h => ldaAbs_shape _ h
  | .ldxAbs _, h => ldxAbs_shape _ h
  | .bcs _, h => bcs_shape _ h
  | .ldaIndY _, h => ldaIndY_shape _ h
  | .ldyZpX _, h => ldyZpX_shape _ h
  | .ldaZpX _, h => ldaZpX_shape _ h
  | .ldxZpY _, h => ldxZpY_shape _ h
  | .clv, h => clv_shape h
  | .ldaAbsY _, h => ldaAbsY_shape _ h
  | .tsx, h => tsx_shape h
  | .ldyAbsX _, h => ldyAbsX_shape _ h
  | .ldaAbsX _, h => ldaAbsX_shape _ h
  | .ldxAbsY _, h => ldxAbsY_shape _ h
  | .cpyImm _, h => cpyImm_shape _ h
  | .cmpIndX _, h => cmpIndX_shape _ h
  | .cpyZp _, h => cpyZp_shape _ h
  | .cmpZp _, h => cmpZp_shape _ h
  | .decZp _, h => decZp_shape _ h
  | .iny, h => iny_shape h
  | .cmpImm _, h => cmpImm_shape _ h
  | .dex, h => dex_shape h
  | .cpyAbs _, h => cpyAbs_shape _ h
  | .cmpAbs _, h => cmpAbs_shape _ h
  | .decAbs _, h => decAbs_shape _ h
  | .bne _, h => bne_shape _ h
  | .cmpIndY _, h => cmpIndY_shape _ h
  | .cmpZpX _, h => cmpZpX_shape _ h
  | .decZpX _, h => decZpX_shape _ h
  | .cld, h => cld_shape h
  | .cmpAbsY _, h => cmpAbsY_shape _ h
  | .cmpAbsX _, h => cmpAbsX_shape _ h
  | .decAbsX _, h => decAbsX_shape _ h
  | .cpxImm _, h => cpxImm_shape _ h
  | .sbcIndX _, h => sbcIndX_shape _ h
  | .cpxZp _, h => cpxZp_shape _ h
  | .sbcZp _, h => sbcZp_shape _ h
  | .incZp _, h => incZp_shape _ h
  | .inx, h => inx_shape h
  | .sbcImm _, h => sbcImm_shape _ h
  | .nop, h => nop_shape h
  | .cpxAbs _, h => cpxAbs_shape _ h
  | .sbcAbs _, h => sbcAbs_shape _ h
  | .incAbs _, h => incAbs_shape _ h
  | .beq _, h => beq_shape _ h
  | .sbcIndY _, h => sbcIndY_shape _ h
  | .sbcZpX _, h => sbcZpX_shape _ h
  | .incZpX _, h => incZpX_shape _ h
  | .sed, h => sed_shape h
  | .sbcAbsY _, h => sbcAbsY_shape _ h
  | .sbcAbsX _, h => sbcAbsX_shape _ h
  | .incAbsX _, h => incAbsX_shape _ h

/-- An instruction keeps the invariant's storages: no instruction writes ROM (R21). -/
theorem exec_rom {i : Instr} {s t : State} (h : exec i s = .next t) : t.prg = s.prg ∧ t.chr = s.chr := by
  cases exec_shape i s t h with
  | cpu _ _ ht =>
    rw [ht]
    exact ⟨rfl, rfl⟩
  | read _ _ a b u hr ht =>
    rw [ht]
    exact ⟨(memRead_frame hr).prg, (memRead_frame hr).chr⟩
  | pointer _ _ a a' b b' u v hr hr' ht =>
    rw [ht]
    exact ⟨((memRead_frame hr).trans (memRead_frame hr')).prg, ((memRead_frame hr).trans (memRead_frame hr')).chr⟩
  | store ea v _ hw => exact ⟨(memWrite_frame hw).prg, (memWrite_frame hw).chr⟩
  | modify ea b v u n z c _ _ hr hw =>
    exact ⟨(memWrite_frame hw).prg.trans (memRead_frame hr).prg, (memWrite_frame hw).chr.trans (memRead_frame hr).chr⟩
  | push _ ht _ _ =>
    rw [ht]
    exact ⟨rfl, rfl⟩

end Sys2Proof.Machine
end

