-- ==== Sys2Proof/Laws/Image.lean ====
section
/-! SUPPORT. The conversions between file offsets and CPU addresses, inside their ranges and outside (64_ines_image.md R375,
R377, R378), and the step rule of a run that ends at a stated address (70_reset_and_hazards.md R390). -/

namespace Sys2Proof.Machine

theorem prgOffsetOfFile_inside {fileOffset : Nat} (h : 0x10 ≤ fileOffset) (h' : fileOffset < 0x40010) :
    prgOffsetOfFile fileOffset = some (fileOffset - 0x10) := if_pos ⟨h, h'⟩

theorem prgOffsetOfFile_outside {fileOffset : Nat} (h : fileOffset < 0x10 ∨ 0x40010 ≤ fileOffset) :
    prgOffsetOfFile fileOffset = none := by
  unfold prgOffsetOfFile inesChrStart inesHeaderSize Config.prgSize
  rw [if_neg (by omega)]

/-- An offset in the header or past PRG ROM is visible nowhere (R375). -/
theorem cpuAddresses_outside (m : Mmc3) {fileOffset : Nat} (h : fileOffset < 0x10 ∨ 0x40010 ≤ fileOffset) :
    m.cpuAddresses fileOffset = [] := by
  unfold Mmc3.cpuAddresses
  rw [prgOffsetOfFile_outside h]

/-- The addresses of a PRG offset: one for each window that shows its bank (R375). -/
theorem mem_cpuAddresses (m : Mmc3) (a : Addr) {fileOffset prgOffset : Nat}
    (h : prgOffsetOfFile fileOffset = some prgOffset) :
    a ∈ m.cpuAddresses fileOffset ↔ ∃ window, window < 4 ∧ m.shows window (prgBank8 prgOffset) = true ∧
      BitVec.ofNat 16 (0x8000 + window * 0x2000 + offsetInBank8 prgOffset) = a := by
  unfold Mmc3.cpuAddresses
  rw [h]
  simp only [List.mem_map, List.mem_filter]
  constructor
  · rintro ⟨w, ⟨hw, hs⟩, he⟩
    exact ⟨w, by simp at hw; omega, hs, he⟩
  · rintro ⟨w, hw, hs, he⟩
    exact ⟨w, ⟨by simp; omega, hs⟩, he⟩

/-- The source's formula, for an offset in 16KB bank 15 (R375). -/
theorem bank15CpuAddress_of {fileOffset prgOffset : Nat} (h : prgOffsetOfFile fileOffset = some prgOffset)
    (h' : prgBank16 prgOffset = 15) :
    bank15CpuAddress fileOffset = some (BitVec.ofNat 16 (0xC000 + offsetInBank16 prgOffset)) := by
  unfold bank15CpuAddress
  rw [h]
  exact if_pos h'

theorem fileOffset_window (m : Mmc3) {a : Addr} (h : 0x8000 ≤ a.toNat) : m.fileOffset a = some (0x10 + m.prgOffset a) :=
  if_pos h

/-- Below $8000 no byte of the file is seen (R378). -/
theorem fileOffset_below (m : Mmc3) {a : Addr} (h : a.toNat < 0x8000) : m.fileOffset a = none := if_neg (by omega)

/-- At the end a run stops (R390). -/
theorem runToEnd_end {address : Addr} {s : State} (h : s.atEnd address = true) (fuel : Nat) :
    runToEnd address fuel s = some s := by
  cases fuel <;> exact if_pos h

/-- Before the end a run takes a step. -/
theorem runToEnd_step {address : Addr} {s : State} (h : s.atEnd address = false) (fuel : Nat) :
    runToEnd address (fuel + 1) s = (outcomeState (step s)).bind (runToEnd address fuel) :=
  if_neg (by rw [h]; exact Bool.false_ne_true)

end Sys2Proof.Machine
end

