-- ==== Sys2Proof/Laws/PerInstr.lean ====
section
/-! SUPPORT. A statement made of each instruction as syntax, one lemma per constructor of `Instr`: its encoding begins
with an opcode byte, and that byte alone gives the number of bytes (30_encoding.md R80, R81). -/

namespace Sys2Proof.Laws

/-- The encoding is as long as the instruction's addressing mode says, and its first byte tells that length. -/
def EncodedLength.Statement (i : Instr) : Prop :=
  (encode i).length = lengthOf i ∧ (encode i).head?.bind opcodeLength = some (lengthOf i)

theorem EncodedLength.brk : EncodedLength.Statement .brk := ⟨rfl, rfl⟩
theorem EncodedLength.oraIndX (p : Byte) : EncodedLength.Statement (.oraIndX p) := ⟨rfl, rfl⟩
theorem EncodedLength.oraZp (p : Byte) : EncodedLength.Statement (.oraZp p) := ⟨rfl, rfl⟩
theorem EncodedLength.aslZp (p : Byte) : EncodedLength.Statement (.aslZp p) := ⟨rfl, rfl⟩
theorem EncodedLength.php : EncodedLength.Statement .php := ⟨rfl, rfl⟩
theorem EncodedLength.oraImm (m : Byte) : EncodedLength.Statement (.oraImm m) := ⟨rfl, rfl⟩
theorem EncodedLength.aslAcc : EncodedLength.Statement .aslAcc := ⟨rfl, rfl⟩
theorem EncodedLength.oraAbs (a : Addr) : EncodedLength.Statement (.oraAbs a) := ⟨rfl, rfl⟩
theorem EncodedLength.aslAbs (a : Addr) : EncodedLength.Statement (.aslAbs a) := ⟨rfl, rfl⟩
theorem EncodedLength.bpl (disp : Int) : EncodedLength.Statement (.bpl disp) := ⟨rfl, rfl⟩
theorem EncodedLength.oraIndY (p : Byte) : EncodedLength.Statement (.oraIndY p) := ⟨rfl, rfl⟩
theorem EncodedLength.oraZpX (p : Byte) : EncodedLength.Statement (.oraZpX p) := ⟨rfl, rfl⟩
theorem EncodedLength.aslZpX (p : Byte) : EncodedLength.Statement (.aslZpX p) := ⟨rfl, rfl⟩
theorem EncodedLength.clc : EncodedLength.Statement .clc := ⟨rfl, rfl⟩
theorem EncodedLength.oraAbsY (a : Addr) : EncodedLength.Statement (.oraAbsY a) := ⟨rfl, rfl⟩
theorem EncodedLength.oraAbsX (a : Addr) : EncodedLength.Statement (.oraAbsX a) := ⟨rfl, rfl⟩
theorem EncodedLength.aslAbsX (a : Addr) : EncodedLength.Statement (.aslAbsX a) := ⟨rfl, rfl⟩
theorem EncodedLength.jsr (a : Addr) : EncodedLength.Statement (.jsr a) := ⟨rfl, rfl⟩
theorem EncodedLength.andIndX (p : Byte) : EncodedLength.Statement (.andIndX p) := ⟨rfl, rfl⟩
theorem EncodedLength.bitZp (p : Byte) : EncodedLength.Statement (.bitZp p) := ⟨rfl, rfl⟩
theorem EncodedLength.andZp (p : Byte) : EncodedLength.Statement (.andZp p) := ⟨rfl, rfl⟩
theorem EncodedLength.rolZp (p : Byte) : EncodedLength.Statement (.rolZp p) := ⟨rfl, rfl⟩
theorem EncodedLength.plp : EncodedLength.Statement .plp := ⟨rfl, rfl⟩
theorem EncodedLength.andImm (m : Byte) : EncodedLength.Statement (.andImm m) := ⟨rfl, rfl⟩
theorem EncodedLength.rolAcc : EncodedLength.Statement .rolAcc := ⟨rfl, rfl⟩
theorem EncodedLength.bitAbs (a : Addr) : EncodedLength.Statement (.bitAbs a) := ⟨rfl, rfl⟩
theorem EncodedLength.andAbs (a : Addr) : EncodedLength.Statement (.andAbs a) := ⟨rfl, rfl⟩
theorem EncodedLength.rolAbs (a : Addr) : EncodedLength.Statement (.rolAbs a) := ⟨rfl, rfl⟩
theorem EncodedLength.bmi (disp : Int) : EncodedLength.Statement (.bmi disp) := ⟨rfl, rfl⟩
theorem EncodedLength.andIndY (p : Byte) : EncodedLength.Statement (.andIndY p) := ⟨rfl, rfl⟩
theorem EncodedLength.andZpX (p : Byte) : EncodedLength.Statement (.andZpX p) := ⟨rfl, rfl⟩
theorem EncodedLength.rolZpX (p : Byte) : EncodedLength.Statement (.rolZpX p) := ⟨rfl, rfl⟩
theorem EncodedLength.sec : EncodedLength.Statement .sec := ⟨rfl, rfl⟩
theorem EncodedLength.andAbsY (a : Addr) : EncodedLength.Statement (.andAbsY a) := ⟨rfl, rfl⟩
theorem EncodedLength.andAbsX (a : Addr) : EncodedLength.Statement (.andAbsX a) := ⟨rfl, rfl⟩
theorem EncodedLength.rolAbsX (a : Addr) : EncodedLength.Statement (.rolAbsX a) := ⟨rfl, rfl⟩
theorem EncodedLength.rti : EncodedLength.Statement .rti := ⟨rfl, rfl⟩
theorem EncodedLength.eorIndX (p : Byte) : EncodedLength.Statement (.eorIndX p) := ⟨rfl, rfl⟩
theorem EncodedLength.eorZp (p : Byte) : EncodedLength.Statement (.eorZp p) := ⟨rfl, rfl⟩
theorem EncodedLength.lsrZp (p : Byte) : EncodedLength.Statement (.lsrZp p) := ⟨rfl, rfl⟩
theorem EncodedLength.pha : EncodedLength.Statement .pha := ⟨rfl, rfl⟩
theorem EncodedLength.eorImm (m : Byte) : EncodedLength.Statement (.eorImm m) := ⟨rfl, rfl⟩
theorem EncodedLength.lsrAcc : EncodedLength.Statement .lsrAcc := ⟨rfl, rfl⟩
theorem EncodedLength.jmpAbs (a : Addr) : EncodedLength.Statement (.jmpAbs a) := ⟨rfl, rfl⟩
theorem EncodedLength.eorAbs (a : Addr) : EncodedLength.Statement (.eorAbs a) := ⟨rfl, rfl⟩
theorem EncodedLength.lsrAbs (a : Addr) : EncodedLength.Statement (.lsrAbs a) := ⟨rfl, rfl⟩
theorem EncodedLength.bvc (disp : Int) : EncodedLength.Statement (.bvc disp) := ⟨rfl, rfl⟩
theorem EncodedLength.eorIndY (p : Byte) : EncodedLength.Statement (.eorIndY p) := ⟨rfl, rfl⟩
theorem EncodedLength.eorZpX (p : Byte) : EncodedLength.Statement (.eorZpX p) := ⟨rfl, rfl⟩
theorem EncodedLength.lsrZpX (p : Byte) : EncodedLength.Statement (.lsrZpX p) := ⟨rfl, rfl⟩
theorem EncodedLength.cli : EncodedLength.Statement .cli := ⟨rfl, rfl⟩
theorem EncodedLength.eorAbsY (a : Addr) : EncodedLength.Statement (.eorAbsY a) := ⟨rfl, rfl⟩
theorem EncodedLength.eorAbsX (a : Addr) : EncodedLength.Statement (.eorAbsX a) := ⟨rfl, rfl⟩
theorem EncodedLength.lsrAbsX (a : Addr) : EncodedLength.Statement (.lsrAbsX a) := ⟨rfl, rfl⟩
theorem EncodedLength.rts : EncodedLength.Statement .rts := ⟨rfl, rfl⟩
theorem EncodedLength.adcIndX (p : Byte) : EncodedLength.Statement (.adcIndX p) := ⟨rfl, rfl⟩
theorem EncodedLength.adcZp (p : Byte) : EncodedLength.Statement (.adcZp p) := ⟨rfl, rfl⟩
theorem EncodedLength.rorZp (p : Byte) : EncodedLength.Statement (.rorZp p) := ⟨rfl, rfl⟩
theorem EncodedLength.pla : EncodedLength.Statement .pla := ⟨rfl, rfl⟩
theorem EncodedLength.adcImm (m : Byte) : EncodedLength.Statement (.adcImm m) := ⟨rfl, rfl⟩
theorem EncodedLength.rorAcc : EncodedLength.Statement .rorAcc := ⟨rfl, rfl⟩
theorem EncodedLength.jmpInd (a : Addr) : EncodedLength.Statement (.jmpInd a) := ⟨rfl, rfl⟩
theorem EncodedLength.adcAbs (a : Addr) : EncodedLength.Statement (.adcAbs a) := ⟨rfl, rfl⟩
theorem EncodedLength.rorAbs (a : Addr) : EncodedLength.Statement (.rorAbs a) := ⟨rfl, rfl⟩
theorem EncodedLength.bvs (disp : Int) : EncodedLength.Statement (.bvs disp) := ⟨rfl, rfl⟩
theorem EncodedLength.adcIndY (p : Byte) : EncodedLength.Statement (.adcIndY p) := ⟨rfl, rfl⟩
theorem EncodedLength.adcZpX (p : Byte) : EncodedLength.Statement (.adcZpX p) := ⟨rfl, rfl⟩
theorem EncodedLength.rorZpX (p : Byte) : EncodedLength.Statement (.rorZpX p) := ⟨rfl, rfl⟩
theorem EncodedLength.sei : EncodedLength.Statement .sei := ⟨rfl, rfl⟩
theorem EncodedLength.adcAbsY (a : Addr) : EncodedLength.Statement (.adcAbsY a) := ⟨rfl, rfl⟩
theorem EncodedLength.adcAbsX (a : Addr) : EncodedLength.Statement (.adcAbsX a) := ⟨rfl, rfl⟩
theorem EncodedLength.rorAbsX (a : Addr) : EncodedLength.Statement (.rorAbsX a) := ⟨rfl, rfl⟩
theorem EncodedLength.staIndX (p : Byte) : EncodedLength.Statement (.staIndX p) := ⟨rfl, rfl⟩
theorem EncodedLength.styZp (p : Byte) : EncodedLength.Statement (.styZp p) := ⟨rfl, rfl⟩
theorem EncodedLength.staZp (p : Byte) : EncodedLength.Statement (.staZp p) := ⟨rfl, rfl⟩
theorem EncodedLength.stxZp (p : Byte) : EncodedLength.Statement (.stxZp p) := ⟨rfl, rfl⟩
theorem EncodedLength.dey : EncodedLength.Statement .dey := ⟨rfl, rfl⟩
theorem EncodedLength.txa : EncodedLength.Statement .txa := ⟨rfl, rfl⟩
theorem EncodedLength.styAbs (a : Addr) : EncodedLength.Statement (.styAbs a) := ⟨rfl, rfl⟩
theorem EncodedLength.staAbs (a : Addr) : EncodedLength.Statement (.staAbs a) := ⟨rfl, rfl⟩
theorem EncodedLength.stxAbs (a : Addr) : EncodedLength.Statement (.stxAbs a) := ⟨rfl, rfl⟩
theorem EncodedLength.bcc (disp : Int) : EncodedLength.Statement (.bcc disp) := ⟨rfl, rfl⟩
theorem EncodedLength.staIndY (p : Byte) : EncodedLength.Statement (.staIndY p) := ⟨rfl, rfl⟩
theorem EncodedLength.styZpX (p : Byte) : EncodedLength.Statement (.styZpX p) := ⟨rfl, rfl⟩
theorem EncodedLength.staZpX (p : Byte) : EncodedLength.Statement (.staZpX p) := ⟨rfl, rfl⟩
theorem EncodedLength.stxZpY (p : Byte) : EncodedLength.Statement (.stxZpY p) := ⟨rfl, rfl⟩
theorem EncodedLength.tya : EncodedLength.Statement .tya := ⟨rfl, rfl⟩
theorem EncodedLength.staAbsY (a : Addr) : EncodedLength.Statement (.staAbsY a) := ⟨rfl, rfl⟩
theorem EncodedLength.txs : EncodedLength.Statement .txs := ⟨rfl, rfl⟩
theorem EncodedLength.staAbsX (a : Addr) : EncodedLength.Statement (.staAbsX a) := ⟨rfl, rfl⟩
theorem EncodedLength.ldyImm (m : Byte) : EncodedLength.Statement (.ldyImm m) := ⟨rfl, rfl⟩
theorem EncodedLength.ldaIndX (p : Byte) : EncodedLength.Statement (.ldaIndX p) := ⟨rfl, rfl⟩
theorem EncodedLength.ldxImm (m : Byte) : EncodedLength.Statement (.ldxImm m) := ⟨rfl, rfl⟩
theorem EncodedLength.ldyZp (p : Byte) : EncodedLength.Statement (.ldyZp p) := ⟨rfl, rfl⟩
theorem EncodedLength.ldaZp (p : Byte) : EncodedLength.Statement (.ldaZp p) := ⟨rfl, rfl⟩
theorem EncodedLength.ldxZp (p : Byte) : EncodedLength.Statement (.ldxZp p) := ⟨rfl, rfl⟩
theorem EncodedLength.tay : EncodedLength.Statement .tay := ⟨rfl, rfl⟩
theorem EncodedLength.ldaImm (m : Byte) : EncodedLength.Statement (.ldaImm m) := ⟨rfl, rfl⟩
theorem EncodedLength.tax : EncodedLength.Statement .tax := ⟨rfl, rfl⟩
theorem EncodedLength.ldyAbs (a : Addr) : EncodedLength.Statement (.ldyAbs a) := ⟨rfl, rfl⟩
theorem EncodedLength.ldaAbs (a : Addr) : EncodedLength.Statement (.ldaAbs a) := ⟨rfl, rfl⟩
theorem EncodedLength.ldxAbs (a : Addr) : EncodedLength.Statement (.ldxAbs a) := ⟨rfl, rfl⟩
theorem EncodedLength.bcs (disp : Int) : EncodedLength.Statement (.bcs disp) := ⟨rfl, rfl⟩
theorem EncodedLength.ldaIndY (p : Byte) : EncodedLength.Statement (.ldaIndY p) := ⟨rfl, rfl⟩
theorem EncodedLength.ldyZpX (p : Byte) : EncodedLength.Statement (.ldyZpX p) := ⟨rfl, rfl⟩
theorem EncodedLength.ldaZpX (p : Byte) : EncodedLength.Statement (.ldaZpX p) := ⟨rfl, rfl⟩
theorem EncodedLength.ldxZpY (p : Byte) : EncodedLength.Statement (.ldxZpY p) := ⟨rfl, rfl⟩
theorem EncodedLength.clv : EncodedLength.Statement .clv := ⟨rfl, rfl⟩
theorem EncodedLength.ldaAbsY (a : Addr) : EncodedLength.Statement (.ldaAbsY a) := ⟨rfl, rfl⟩
theorem EncodedLength.tsx : EncodedLength.Statement .tsx := ⟨rfl, rfl⟩
theorem EncodedLength.ldyAbsX (a : Addr) : EncodedLength.Statement (.ldyAbsX a) := ⟨rfl, rfl⟩
theorem EncodedLength.ldaAbsX (a : Addr) : EncodedLength.Statement (.ldaAbsX a) := ⟨rfl, rfl⟩
theorem EncodedLength.ldxAbsY (a : Addr) : EncodedLength.Statement (.ldxAbsY a) := ⟨rfl, rfl⟩
theorem EncodedLength.cpyImm (m : Byte) : EncodedLength.Statement (.cpyImm m) := ⟨rfl, rfl⟩
theorem EncodedLength.cmpIndX (p : Byte) : EncodedLength.Statement (.cmpIndX p) := ⟨rfl, rfl⟩
theorem EncodedLength.cpyZp (p : Byte) : EncodedLength.Statement (.cpyZp p) := ⟨rfl, rfl⟩
theorem EncodedLength.cmpZp (p : Byte) : EncodedLength.Statement (.cmpZp p) := ⟨rfl, rfl⟩
theorem EncodedLength.decZp (p : Byte) : EncodedLength.Statement (.decZp p) := ⟨rfl, rfl⟩
theorem EncodedLength.iny : EncodedLength.Statement .iny := ⟨rfl, rfl⟩
theorem EncodedLength.cmpImm (m : Byte) : EncodedLength.Statement (.cmpImm m) := ⟨rfl, rfl⟩
theorem EncodedLength.dex : EncodedLength.Statement .dex := ⟨rfl, rfl⟩
theorem EncodedLength.cpyAbs (a : Addr) : EncodedLength.Statement (.cpyAbs a) := ⟨rfl, rfl⟩
theorem EncodedLength.cmpAbs (a : Addr) : EncodedLength.Statement (.cmpAbs a) := ⟨rfl, rfl⟩
theorem EncodedLength.decAbs (a : Addr) : EncodedLength.Statement (.decAbs a) := ⟨rfl, rfl⟩
theorem EncodedLength.bne (disp : Int) : EncodedLength.Statement (.bne disp) := ⟨rfl, rfl⟩
theorem EncodedLength.cmpIndY (p : Byte) : EncodedLength.Statement (.cmpIndY p) := ⟨rfl, rfl⟩
theorem EncodedLength.cmpZpX (p : Byte) : EncodedLength.Statement (.cmpZpX p) := ⟨rfl, rfl⟩
theorem EncodedLength.decZpX (p : Byte) : EncodedLength.Statement (.decZpX p) := ⟨rfl, rfl⟩
theorem EncodedLength.cld : EncodedLength.Statement .cld := ⟨rfl, rfl⟩
theorem EncodedLength.cmpAbsY (a : Addr) : EncodedLength.Statement (.cmpAbsY a) := ⟨rfl, rfl⟩
theorem EncodedLength.cmpAbsX (a : Addr) : EncodedLength.Statement (.cmpAbsX a) := ⟨rfl, rfl⟩
theorem EncodedLength.decAbsX (a : Addr) : EncodedLength.Statement (.decAbsX a) := ⟨rfl, rfl⟩
theorem EncodedLength.cpxImm (m : Byte) : EncodedLength.Statement (.cpxImm m) := ⟨rfl, rfl⟩
theorem EncodedLength.sbcIndX (p : Byte) : EncodedLength.Statement (.sbcIndX p) := ⟨rfl, rfl⟩
theorem EncodedLength.cpxZp (p : Byte) : EncodedLength.Statement (.cpxZp p) := ⟨rfl, rfl⟩
theorem EncodedLength.sbcZp (p : Byte) : EncodedLength.Statement (.sbcZp p) := ⟨rfl, rfl⟩
theorem EncodedLength.incZp (p : Byte) : EncodedLength.Statement (.incZp p) := ⟨rfl, rfl⟩
theorem EncodedLength.inx : EncodedLength.Statement .inx := ⟨rfl, rfl⟩
theorem EncodedLength.sbcImm (m : Byte) : EncodedLength.Statement (.sbcImm m) := ⟨rfl, rfl⟩
theorem EncodedLength.nop : EncodedLength.Statement .nop := ⟨rfl, rfl⟩
theorem EncodedLength.cpxAbs (a : Addr) : EncodedLength.Statement (.cpxAbs a) := ⟨rfl, rfl⟩
theorem EncodedLength.sbcAbs (a : Addr) : EncodedLength.Statement (.sbcAbs a) := ⟨rfl, rfl⟩
theorem EncodedLength.incAbs (a : Addr) : EncodedLength.Statement (.incAbs a) := ⟨rfl, rfl⟩
theorem EncodedLength.beq (disp : Int) : EncodedLength.Statement (.beq disp) := ⟨rfl, rfl⟩
theorem EncodedLength.sbcIndY (p : Byte) : EncodedLength.Statement (.sbcIndY p) := ⟨rfl, rfl⟩
theorem EncodedLength.sbcZpX (p : Byte) : EncodedLength.Statement (.sbcZpX p) := ⟨rfl, rfl⟩
theorem EncodedLength.incZpX (p : Byte) : EncodedLength.Statement (.incZpX p) := ⟨rfl, rfl⟩
theorem EncodedLength.sed : EncodedLength.Statement .sed := ⟨rfl, rfl⟩
theorem EncodedLength.sbcAbsY (a : Addr) : EncodedLength.Statement (.sbcAbsY a) := ⟨rfl, rfl⟩
theorem EncodedLength.sbcAbsX (a : Addr) : EncodedLength.Statement (.sbcAbsX a) := ⟨rfl, rfl⟩
theorem EncodedLength.incAbsX (a : Addr) : EncodedLength.Statement (.incAbsX a) := ⟨rfl, rfl⟩

end Sys2Proof.Laws
end

