-- ==== Sys2Proof/Laws/Step.lean ====
section
/-! SUPPORT. The fetch over plain memory, and what a step can be, case by case (30_encoding.md R84, 60_exceptions.md
R221). -/

namespace Sys2Proof.Machine

/-- Plain memory starts below $2000 or at $6000: no fetch from it is refused (R53). -/
theorem fetchRefused_plain {s : State} (h : s.plain s.cpu.pc = true) : fetchRefused s.cpu.pc = false := by
  simp only [State.plain, Bool.or_eq_true, Bool.and_eq_true, decide_eq_true_eq] at h
  simp only [fetchRefused, Bool.and_eq_false_iff, decide_eq_false_iff_not]
  omega

theorem readBytes_zero (a : Addr) (s : State) : readBytes 0 a s = .ok ([], s) := rfl

theorem readBytes_one {s : State} {a : Addr} (h : s.plain a = true) : readBytes 1 a s = .ok ([s.plainByte a], s) := by
  simp only [readBytes, memRead_plain h]

theorem readBytes_two {s : State} {a : Addr} (h : s.plain a = true) (h' : s.plain (a + 1) = true) :
    readBytes 2 a s = .ok ([s.plainByte a, s.plainByte (a + 1)], s) := by
  simp only [readBytes, memRead_plain h, memRead_plain h']

/-- What the decoder reads is as long as the opcode byte says and leaves the bytes behind it. -/
theorem decode_ok {op b c : Byte} {i : Instr} {rest : List Byte} (h : decode [op, b, c] = .ok i rest) :
    opcodeLength op = some (lengthOf i) ∧
      ((lengthOf i = 1 ∧ decode [op] = .ok i []) ∨ (lengthOf i = 2 ∧ decode [op, b] = .ok i []) ∨
        (lengthOf i = 3 ∧ decode [op, b, c] = .ok i [])) := by
  have ha := formOf_agrees op
  simp only [decode, opcodeLength] at h ⊢
  cases hf : formOf op <;> rw [hf] at h ha <;> simp only [Form.Agrees] at h ha <;> cases h <;> simp [ha]

/-- The fetch of a plain instruction: the decoded instruction, PC behind it, nothing else changed (R84). -/
theorem fetch_plain {s : State} {i : Instr} {rest : List Byte}
    (hd : decode [s.plainByte s.cpu.pc, s.plainByte (s.cpu.pc + 1), s.plainByte (s.cpu.pc + 2)] = .ok i rest)
    (hp : ∀ k, k < lengthOf i → s.plain (s.cpu.pc + BitVec.ofNat 16 k) = true) :
    fetch s = .ok (i, s.setPc (s.cpu.pc + BitVec.ofNat 16 (lengthOf i))) := by
  obtain ⟨hlen, hcase⟩ := decode_ok hd
  have hpos : 0 < lengthOf i := by rcases hcase with ⟨h, -⟩ | ⟨h, -⟩ | ⟨h, -⟩ <;> omega
  have h0 : s.plain s.cpu.pc = true := by simpa using hp 0 hpos
  have two : s.cpu.pc + 1 + 1 = s.cpu.pc + 2 := by bv_omega
  unfold fetch
  simp only [fetchRefused_plain h0, Bool.false_eq_true, if_false, memRead_plain h0, hlen]
  rcases hcase with ⟨h, hx⟩ | ⟨h, hx⟩ | ⟨h, hx⟩
  · simp [h, readBytes_zero, hx]
  · have h1 : s.plain (s.cpu.pc + 1) = true := hp 1 (by omega)
    simp only [h, readBytes_one h1, hx]
  · have h1 : s.plain (s.cpu.pc + 1) = true := hp 1 (by omega)
    have h2 : s.plain (s.cpu.pc + 1 + 1) = true := by
      rw [two]
      exact hp 2 (by omega)
    simp only [h, readBytes_two h1 h2, two, hx]

/-- A fetch changes nothing but PC and what reading its bytes changes. -/
theorem readBytes_frame {k : Nat} {a : Addr} {s t : State} {bytes : List Byte} (h : readBytes k a s = .ok (bytes, t)) :
    ReadFrame s t := by
  induction k generalizing a s bytes with
  | zero =>
    cases h
    exact ReadFrame.refl _
  | succ k ih =>
    unfold readBytes at h
    split at h
    · cases h
    · next b s1 h1 =>
      split at h
      · cases h
      · next h2 =>
        cases h
        exact (memRead_frame h1).trans (ih h2)

theorem fetch_frame {s t : State} {i : Instr} (h : fetch s = .ok (i, t)) :
    ∃ u len, ReadFrame s u ∧ t = u.setPc (s.cpu.pc + BitVec.ofNat 16 len) := by
  unfold fetch at h
  split at h
  · cases h
  split at h
  · cases h
  next op s1 h1 =>
    split at h
    · cases h
    next len _ =>
      split at h
      · cases h
      next operands s2 h2 =>
        split at h <;> cases h
        exact ⟨_, len, (memRead_frame h1).trans (readBytes_frame h2), rfl⟩

/-- What a step that answers a next state did (R221): one of six moves, and the time after it. -/
theorem step_cases {s t : State} (h : step s = .next t) :
    t = s.takeInput.takeReset.elapse s.nextInput 7 ∨
    t = s.takeInput.powerCycle ∨
    (s.dma.active = true ∧ ∃ u, s.takeInput.dmaStep = .ok u ∧ t = u.elapse s.nextInput s.dmaCycles) ∨
    t = s.takeInput.takeNmi.elapse s.nextInput 7 ∨
    t = s.takeInput.takeIrq.elapse s.nextInput 7 ∨
    (s.takeInput.nextMove s.nextInput = .instruction ∧ ∃ i u v, fetch s.takeInput = .ok (i, u) ∧ exec i u = .next v ∧
      t = v.elapse s.nextInput (cyclesOf i u)) := by
  unfold step State.move at h
  cases hm : s.takeInput.nextMove s.nextInput <;> rw [hm] at h <;> simp only at h
  · cases h
    exact .inl rfl
  · cases h
    exact .inr (.inl rfl)
  · have active : s.dma.active = true := by
      unfold State.nextMove at hm
      split at hm <;> try cases hm
      split at hm
      · next ha => exact ha
      · split at hm
        · cases hm
        · split at hm <;> cases hm
    unfold State.dmaMove at h
    split at h <;> cases h
    next u hu => exact .inr (.inr (.inl ⟨active, u, hu, rfl⟩))
  · cases h
    exact .inr (.inr (.inr (.inl rfl)))
  · cases h
    exact .inr (.inr (.inr (.inr (.inl rfl))))
  · unfold State.instructionStep at h
    split at h
    · cases h
    · next i u hf =>
      unfold afterExec at h
      split at h <;> cases h
      next v hv => exact .inr (.inr (.inr (.inr (.inr ⟨rfl, i, u, v, hf, hv, rfl⟩))))

end Sys2Proof.Machine
end

