-- ==== Sys2Proof/Laws/Storage.lean ====
section
/-! SUPPORT. What the bus operations do to the bytes of the storages: a read changes none, a write changes at most the
cell `storedCell` names (20_memory.md R41, R42). -/

namespace Sys2Proof.Machine

/-- A read changes no byte of any storage. -/
theorem memRead_byteAt {a : Addr} {s t : State} {b : Byte} (h : memRead a s = .ok (b, t)) (storage : Storage) (k : Nat) :
    t.byteAt storage k = s.byteAt storage k := by
  have f := memRead_frame h
  cases storage <;> simp only [State.byteAt, f.ram, f.wram, f.prg, f.chr, f.nametables, f.palette, f.oam]

theorem writeWarm_byteAt {s : State} {p : Ppu} (hn : p.nametables = s.ppu.nametables) (hp : p.palette = s.ppu.palette)
    (ho : p.oam = s.ppu.oam) (storage : Storage) (k : Nat) : (s.writeWarm p).byteAt storage k = s.byteAt storage k := by
  unfold State.writeWarm
  split
  · cases storage
    case nametables => exact congrArg (Memory.read · k) hn
    case palette => exact congrArg (Memory.read · k) hp
    case oam => exact congrArg (Memory.read · k) ho
    all_goals rfl
  · cases storage <;> rfl

theorem writeScroll_memories (p : Ppu) (d : Byte) :
    (p.writeScroll d).nametables = p.nametables ∧ (p.writeScroll d).palette = p.palette ∧ (p.writeScroll d).oam = p.oam := by
  unfold Ppu.writeScroll
  split <;> exact ⟨rfl, rfl, rfl⟩

theorem writeAddr_memories (p : Ppu) (d : Byte) :
    (p.writeAddr d).nametables = p.nametables ∧ (p.writeAddr d).palette = p.palette ∧ (p.writeAddr d).oam = p.oam := by
  unfold Ppu.writeAddr
  split <;> exact ⟨rfl, rfl, rfl⟩

/-- A $2007 write changes at most the byte of VRAM at `v` (R271, R276). -/
theorem ppuWrite_byteAt (s : State) (address : PpuAddr) (d : Byte) (storage : Storage) (k : Nat)
    (hn : 0x2000 ≤ address.toNat → address.toNat < 0x3F00 →
      (storage, k) ≠ (Storage.nametables, nametableIndex s.mmc3.mirroring address))
    (hp : 0x3F00 ≤ address.toNat → (storage, k) ≠ (Storage.palette, paletteIndex address)) :
    (s.ppuWrite address d).byteAt storage k = s.byteAt storage k := by
  unfold State.ppuWrite
  split
  · rfl
  split
  · cases storage
    case nametables =>
      have hk : k ≠ nametableIndex s.mmc3.mirroring address := fun e => hn (by omega) (by omega) (by rw [e])
      exact Memory.read_write_other _ _ hk
    all_goals rfl
  · cases storage
    case palette =>
      have hk : k ≠ paletteIndex address := fun e => hp (by omega) (by rw [e])
      exact Memory.read_write_other _ _ hk
    all_goals rfl

theorem writePpuReg_byteAt {s t : State} {reg : Nat} {d : Byte} (h : s.writePpuReg reg d = .ok t) (storage : Storage)
    (k : Nat) (ho : reg = 4 → (storage, k) ≠ (Storage.oam, s.ppu.oamAddr.toNat))
    (hn : reg ≠ 4 → 0x2000 ≤ s.ppu.vramAddr.toNat → s.ppu.vramAddr.toNat < 0x3F00 → 7 ≤ reg →
      (storage, k) ≠ (Storage.nametables, nametableIndex s.mmc3.mirroring s.ppu.vramAddr))
    (hp : reg ≠ 4 → 0x3F00 ≤ s.ppu.vramAddr.toNat → 7 ≤ reg →
      (storage, k) ≠ (Storage.palette, paletteIndex s.ppu.vramAddr)) :
    t.byteAt storage k = s.byteAt storage k := by
  unfold State.writePpuReg at h
  split at h
  · split at h <;> cases h
    exact writeWarm_byteAt (s := s) (p := s.ppu.writeCtrl d) rfl rfl rfl storage k
  · cases h
    exact writeWarm_byteAt (s := s) (p := s.ppu.writeMask d) rfl rfl rfl storage k
  · cases h
    rfl
  · cases h
    cases storage <;> rfl
  · unfold State.writeOamData at h
    split at h <;> cases h
    cases storage
    case oam =>
      have hk : k ≠ s.ppu.oamAddr.toNat := fun e => ho rfl (by rw [e])
      exact Memory.read_write_other _ _ hk
    all_goals rfl
  · cases h
    obtain ⟨e1, e2, e3⟩ := writeScroll_memories s.ppu d
    exact writeWarm_byteAt e1 e2 e3 storage k
  · cases h
    obtain ⟨e1, e2, e3⟩ := writeAddr_memories s.ppu d
    exact Eq.trans (by cases storage <;> rfl) (writeWarm_byteAt e1 e2 e3 storage k)
  · next h0 h1 h2 h3 h4 h5 h6 =>
    have h7 : 7 ≤ reg := by
      have e0 : reg ≠ 0 := h0
      have e1 : reg ≠ 1 := h1
      have e2 : reg ≠ 2 := h2
      have e3 : reg ≠ 3 := h3
      have e4 : reg ≠ 4 := h4
      have e5 : reg ≠ 5 := h5
      have e6 : reg ≠ 6 := h6
      omega
    unfold State.writePpuData at h
    split at h <;> cases h
    exact Eq.trans (by cases storage <;> rfl) (ppuWrite_byteAt s s.ppu.vramAddr d storage k
      (fun e e' => hn (by omega) e e' h7) (fun e => hp (by omega) e h7))

theorem writeIo_byteAt {s t : State} {address : Nat} {d : Byte} (h : s.writeIo address d = .ok t) (storage : Storage)
    (k : Nat) : t.byteAt storage k = s.byteAt storage k := by
  unfold State.writeIo at h
  split at h
  · cases h
    cases storage <;> rfl
  split at h
  · unfold State.startDma at h
    split at h
    · cases h
    · split at h <;> cases h
      cases storage <;> rfl
  split at h
  · split at h <;> cases h
    cases storage <;> rfl
  split at h
  · cases h
    cases storage <;> rfl
  split at h
  · cases h
    cases storage <;> rfl
  · cases h
    rfl

/-- A write changes no byte but the one it stores to. -/
theorem memWrite_byteAt {a : Addr} {v : Byte} {s t : State} (h : memWrite a v s = .ok t) (storage : Storage) (k : Nat)
    (hk : s.storedCell a ≠ some (storage, k)) : t.byteAt storage k = s.byteAt storage k := by
  unfold State.storedCell at hk
  unfold memWrite at h
  split at h
  · next h1 =>
    cases h
    rw [if_pos h1] at hk
    cases storage
    case ram => exact Memory.read_write_other _ _ (fun e => hk (by rw [e]))
    all_goals rfl
  next h1 =>
  rw [if_neg h1] at hk
  split at h
  · next h2 =>
    rw [if_pos h2] at hk
    refine writePpuReg_byteAt h storage k (fun e => ?_) (fun e e1 e2 e3 => ?_) (fun e e1 e2 => ?_)
    · rw [if_pos e] at hk
      exact fun e' => hk (by rw [e'])
    · rw [if_neg e, if_pos (by omega), if_neg (by omega), if_pos e2] at hk
      exact fun e' => hk (by rw [e'])
    · rw [if_neg e, if_pos (by omega), if_neg (by omega), if_neg (by omega)] at hk
      exact fun e' => hk (by rw [e'])
  next h2 =>
  rw [if_neg h2] at hk
  split at h
  · exact writeIo_byteAt h storage k
  split at h
  · cases h
    rfl
  split at h
  · next h3 h4 h5 =>
    rw [if_pos ⟨by omega, h5⟩] at hk
    split at h
    · next hw =>
      cases h
      rw [if_pos hw] at hk
      cases storage
      case wram => exact Memory.read_write_other _ _ (fun e => hk (by rw [e]))
      all_goals rfl
    · cases h
      rfl
  · cases h
    cases storage <;> rfl

/-- Where a read-modify-write instruction is not refused, its read leaves the cell it will store to as it was. -/
theorem storedCell_afterRead {a : Addr} {s t : State} {b : Byte} (h : memRead a s = .ok (b, t))
    (hm : modifyRefused a = false) : t.storedCell a = s.storedCell a := by
  have f := memRead_frame h
  unfold modifyRefused at hm
  rw [Bool.or_eq_false_iff, Bool.and_eq_false_iff, decide_eq_false_iff_not, decide_eq_false_iff_not,
    decide_eq_false_iff_not] at hm
  have hw : t.mmc3.wramWritable = s.mmc3.wramWritable := by
    unfold Mmc3.wramWritable
    rw [f.prgRamProtect]
  unfold State.storedCell
  by_cases h1 : a.toNat < 0x2000
  · rw [if_pos h1, if_pos h1]
  · have h2 : ¬a.toNat < 0x4000 := by omega
    simp only [h1, h2, if_false, hw]

end Sys2Proof.Machine
end

