-- ==== Sys2Proof/Tests/Slice0.lean ====
section
/-! SUPPORT. The model's own tests: the well-formedness smoke, one written-out word per opcode, single steps taken from
the vectors of 95_test_vectors.md part 2, and for each obligation with hypotheses a witness that meets them. -/

namespace Sys2Proof.Tests

open Sys2Proof.Machine

/-! Well-formedness: a displacement outside -128..+127 is refused for each branch (30_encoding.md R87). -/

theorem test_wf_bpl : (Instr.wf (.bpl 128), Instr.wf (.bpl (-129)), Instr.wf (.bpl 127), Instr.wf (.bpl (-128))) =
    (false, false, true, true) := by decide
theorem test_wf_bmi : (Instr.wf (.bmi 128), Instr.wf (.bmi (-129)), Instr.wf (.bmi 127), Instr.wf (.bmi (-128))) =
    (false, false, true, true) := by decide
theorem test_wf_bvc : (Instr.wf (.bvc 128), Instr.wf (.bvc (-129)), Instr.wf (.bvc 127), Instr.wf (.bvc (-128))) =
    (false, false, true, true) := by decide
theorem test_wf_bvs : (Instr.wf (.bvs 128), Instr.wf (.bvs (-129)), Instr.wf (.bvs 127), Instr.wf (.bvs (-128))) =
    (false, false, true, true) := by decide
theorem test_wf_bcc : (Instr.wf (.bcc 128), Instr.wf (.bcc (-129)), Instr.wf (.bcc 127), Instr.wf (.bcc (-128))) =
    (false, false, true, true) := by decide
theorem test_wf_bcs : (Instr.wf (.bcs 128), Instr.wf (.bcs (-129)), Instr.wf (.bcs 127), Instr.wf (.bcs (-128))) =
    (false, false, true, true) := by decide
theorem test_wf_bne : (Instr.wf (.bne 128), Instr.wf (.bne (-129)), Instr.wf (.bne 127), Instr.wf (.bne (-128))) =
    (false, false, true, true) := by decide
theorem test_wf_beq : (Instr.wf (.beq 128), Instr.wf (.beq (-129)), Instr.wf (.beq 127), Instr.wf (.beq (-128))) =
    (false, false, true, true) := by decide

/-! Decoding: the bytes are the opcode byte of R89 (spec/opcode_table.json) and operand bytes laid out by R85 and R86,
the low byte of an address first; the byte after the instruction is left over. -/

theorem test_decode_adc :
    decode [0x61, 0x9C, 0xEE] = .ok (.adcIndX 0x9C) [0xEE] ∧
    decode [0x65, 0x9C, 0xEE] = .ok (.adcZp 0x9C) [0xEE] ∧
    decode [0x69, 0x9C, 0xEE] = .ok (.adcImm 0x9C) [0xEE] ∧
    decode [0x6D, 0x34, 0x92, 0xEE] = .ok (.adcAbs 0x9234) [0xEE] ∧
    decode [0x71, 0x9C, 0xEE] = .ok (.adcIndY 0x9C) [0xEE] ∧
    decode [0x75, 0x9C, 0xEE] = .ok (.adcZpX 0x9C) [0xEE] ∧
    decode [0x79, 0x34, 0x92, 0xEE] = .ok (.adcAbsY 0x9234) [0xEE] ∧
    decode [0x7D, 0x34, 0x92, 0xEE] = .ok (.adcAbsX 0x9234) [0xEE] := by decide
theorem test_decode_and :
    decode [0x21, 0x9C, 0xEE] = .ok (.andIndX 0x9C) [0xEE] ∧
    decode [0x25, 0x9C, 0xEE] = .ok (.andZp 0x9C) [0xEE] ∧
    decode [0x29, 0x9C, 0xEE] = .ok (.andImm 0x9C) [0xEE] ∧
    decode [0x2D, 0x34, 0x92, 0xEE] = .ok (.andAbs 0x9234) [0xEE] ∧
    decode [0x31, 0x9C, 0xEE] = .ok (.andIndY 0x9C) [0xEE] ∧
    decode [0x35, 0x9C, 0xEE] = .ok (.andZpX 0x9C) [0xEE] ∧
    decode [0x39, 0x34, 0x92, 0xEE] = .ok (.andAbsY 0x9234) [0xEE] ∧
    decode [0x3D, 0x34, 0x92, 0xEE] = .ok (.andAbsX 0x9234) [0xEE] := by decide
theorem test_decode_asl :
    decode [0x06, 0x9C, 0xEE] = .ok (.aslZp 0x9C) [0xEE] ∧
    decode [0x0A, 0xEE] = .ok .aslAcc [0xEE] ∧
    decode [0x0E, 0x34, 0x92, 0xEE] = .ok (.aslAbs 0x9234) [0xEE] ∧
    decode [0x16, 0x9C, 0xEE] = .ok (.aslZpX 0x9C) [0xEE] ∧
    decode [0x1E, 0x34, 0x92, 0xEE] = .ok (.aslAbsX 0x9234) [0xEE] := by decide
theorem test_decode_bcc :
    decode [0x90, 0x7F, 0xEE] = .ok (.bcc 127) [0xEE] ∧
    decode [0x90, 0x80] = .ok (.bcc (-128)) [] := by decide
theorem test_decode_bcs :
    decode [0xB0, 0x7F, 0xEE] = .ok (.bcs 127) [0xEE] ∧
    decode [0xB0, 0x80] = .ok (.bcs (-128)) [] := by decide
theorem test_decode_beq :
    decode [0xF0, 0x7F, 0xEE] = .ok (.beq 127) [0xEE] ∧
    decode [0xF0, 0x80] = .ok (.beq (-128)) [] := by decide
theorem test_decode_bit :
    decode [0x24, 0x9C, 0xEE] = .ok (.bitZp 0x9C) [0xEE] ∧
    decode [0x2C, 0x34, 0x92, 0xEE] = .ok (.bitAbs 0x9234) [0xEE] := by decide
theorem test_decode_bmi :
    decode [0x30, 0x7F, 0xEE] = .ok (.bmi 127) [0xEE] ∧
    decode [0x30, 0x80] = .ok (.bmi (-128)) [] := by decide
theorem test_decode_bne :
    decode [0xD0, 0x7F, 0xEE] = .ok (.bne 127) [0xEE] ∧
    decode [0xD0, 0x80] = .ok (.bne (-128)) [] := by decide
theorem test_decode_bpl :
    decode [0x10, 0x7F, 0xEE] = .ok (.bpl 127) [0xEE] ∧
    decode [0x10, 0x80] = .ok (.bpl (-128)) [] := by decide
theorem test_decode_brk :
    decode [0x00, 0xEE] = .ok .brk [0xEE] := by decide
theorem test_decode_bvc :
    decode [0x50, 0x7F, 0xEE] = .ok (.bvc 127) [0xEE] ∧
    decode [0x50, 0x80] = .ok (.bvc (-128)) [] := by decide
theorem test_decode_bvs :
    decode [0x70, 0x7F, 0xEE] = .ok (.bvs 127) [0xEE] ∧
    decode [0x70, 0x80] = .ok (.bvs (-128)) [] := by decide
theorem test_decode_clc :
    decode [0x18, 0xEE] = .ok .clc [0xEE] := by decide
theorem test_decode_cld :
    decode [0xD8, 0xEE] = .ok .cld [0xEE] := by decide
theorem test_decode_cli :
    decode [0x58, 0xEE] = .ok .cli [0xEE] := by decide
theorem test_decode_clv :
    decode [0xB8, 0xEE] = .ok .clv [0xEE] := by decide
theorem test_decode_cmp :
    decode [0xC1, 0x9C, 0xEE] = .ok (.cmpIndX 0x9C) [0xEE] ∧
    decode [0xC5, 0x9C, 0xEE] = .ok (.cmpZp 0x9C) [0xEE] ∧
    decode [0xC9, 0x9C, 0xEE] = .ok (.cmpImm 0x9C) [0xEE] ∧
    decode [0xCD, 0x34, 0x92, 0xEE] = .ok (.cmpAbs 0x9234) [0xEE] ∧
    decode [0xD1, 0x9C, 0xEE] = .ok (.cmpIndY 0x9C) [0xEE] ∧
    decode [0xD5, 0x9C, 0xEE] = .ok (.cmpZpX 0x9C) [0xEE] ∧
    decode [0xD9, 0x34, 0x92, 0xEE] = .ok (.cmpAbsY 0x9234) [0xEE] ∧
    decode [0xDD, 0x34, 0x92, 0xEE] = .ok (.cmpAbsX 0x9234) [0xEE] := by decide
theorem test_decode_cpx :
    decode [0xE0, 0x9C, 0xEE] = .ok (.cpxImm 0x9C) [0xEE] ∧
    decode [0xE4, 0x9C, 0xEE] = .ok (.cpxZp 0x9C) [0xEE] ∧
    decode [0xEC, 0x34, 0x92, 0xEE] = .ok (.cpxAbs 0x9234) [0xEE] := by decide
theorem test_decode_cpy :
    decode [0xC0, 0x9C, 0xEE] = .ok (.cpyImm 0x9C) [0xEE] ∧
    decode [0xC4, 0x9C, 0xEE] = .ok (.cpyZp 0x9C) [0xEE] ∧
    decode [0xCC, 0x34, 0x92, 0xEE] = .ok (.cpyAbs 0x9234) [0xEE] := by decide
theorem test_decode_dec :
    decode [0xC6, 0x9C, 0xEE] = .ok (.decZp 0x9C) [0xEE] ∧
    decode [0xCE, 0x34, 0x92, 0xEE] = .ok (.decAbs 0x9234) [0xEE] ∧
    decode [0xD6, 0x9C, 0xEE] = .ok (.decZpX 0x9C) [0xEE] ∧
    decode [0xDE, 0x34, 0x92, 0xEE] = .ok (.decAbsX 0x9234) [0xEE] := by decide
theorem test_decode_dex :
    decode [0xCA, 0xEE] = .ok .dex [0xEE] := by decide
theorem test_decode_dey :
    decode [0x88, 0xEE] = .ok .dey [0xEE] := by decide
theorem test_decode_eor :
    decode [0x41, 0x9C, 0xEE] = .ok (.eorIndX 0x9C) [0xEE] ∧
    decode [0x45, 0x9C, 0xEE] = .ok (.eorZp 0x9C) [0xEE] ∧
    decode [0x49, 0x9C, 0xEE] = .ok (.eorImm 0x9C) [0xEE] ∧
    decode [0x4D, 0x34, 0x92, 0xEE] = .ok (.eorAbs 0x9234) [0xEE] ∧
    decode [0x51, 0x9C, 0xEE] = .ok (.eorIndY 0x9C) [0xEE] ∧
    decode [0x55, 0x9C, 0xEE] = .ok (.eorZpX 0x9C) [0xEE] ∧
    decode [0x59, 0x34, 0x92, 0xEE] = .ok (.eorAbsY 0x9234) [0xEE] ∧
    decode [0x5D, 0x34, 0x92, 0xEE] = .ok (.eorAbsX 0x9234) [0xEE] := by decide
theorem test_decode_inc :
    decode [0xE6, 0x9C, 0xEE] = .ok (.incZp 0x9C) [0xEE] ∧
    decode [0xEE, 0x34, 0x92, 0xEE] = .ok (.incAbs 0x9234) [0xEE] ∧
    decode [0xF6, 0x9C, 0xEE] = .ok (.incZpX 0x9C) [0xEE] ∧
    decode [0xFE, 0x34, 0x92, 0xEE] = .ok (.incAbsX 0x9234) [0xEE] := by decide
theorem test_decode_inx :
    decode [0xE8, 0xEE] = .ok .inx [0xEE] := by decide
theorem test_decode_iny :
    decode [0xC8, 0xEE] = .ok .iny [0xEE] := by decide
theorem test_decode_jmp :
    decode [0x4C, 0x34, 0x92, 0xEE] = .ok (.jmpAbs 0x9234) [0xEE] ∧
    decode [0x6C, 0x34, 0x92, 0xEE] = .ok (.jmpInd 0x9234) [0xEE] := by decide
theorem test_decode_jsr :
    decode [0x20, 0x34, 0x92, 0xEE] = .ok (.jsr 0x9234) [0xEE] := by decide
theorem test_decode_lda :
    decode [0xA1, 0x9C, 0xEE] = .ok (.ldaIndX 0x9C) [0xEE] ∧
    decode [0xA5, 0x9C, 0xEE] = .ok (.ldaZp 0x9C) [0xEE] ∧
    decode [0xA9, 0x9C, 0xEE] = .ok (.ldaImm 0x9C) [0xEE] ∧
    decode [0xAD, 0x34, 0x92, 0xEE] = .ok (.ldaAbs 0x9234) [0xEE] ∧
    decode [0xB1, 0x9C, 0xEE] = .ok (.ldaIndY 0x9C) [0xEE] ∧
    decode [0xB5, 0x9C, 0xEE] = .ok (.ldaZpX 0x9C) [0xEE] ∧
    decode [0xB9, 0x34, 0x92, 0xEE] = .ok (.ldaAbsY 0x9234) [0xEE] ∧
    decode [0xBD, 0x34, 0x92, 0xEE] = .ok (.ldaAbsX 0x9234) [0xEE] := by decide
theorem test_decode_ldx :
    decode [0xA2, 0x9C, 0xEE] = .ok (.ldxImm 0x9C) [0xEE] ∧
    decode [0xA6, 0x9C, 0xEE] = .ok (.ldxZp 0x9C) [0xEE] ∧
    decode [0xAE, 0x34, 0x92, 0xEE] = .ok (.ldxAbs 0x9234) [0xEE] ∧
    decode [0xB6, 0x9C, 0xEE] = .ok (.ldxZpY 0x9C) [0xEE] ∧
    decode [0xBE, 0x34, 0x92, 0xEE] = .ok (.ldxAbsY 0x9234) [0xEE] := by decide
theorem test_decode_ldy :
    decode [0xA0, 0x9C, 0xEE] = .ok (.ldyImm 0x9C) [0xEE] ∧
    decode [0xA4, 0x9C, 0xEE] = .ok (.ldyZp 0x9C) [0xEE] ∧
    decode [0xAC, 0x34, 0x92, 0xEE] = .ok (.ldyAbs 0x9234) [0xEE] ∧
    decode [0xB4, 0x9C, 0xEE] = .ok (.ldyZpX 0x9C) [0xEE] ∧
    decode [0xBC, 0x34, 0x92, 0xEE] = .ok (.ldyAbsX 0x9234) [0xEE] := by decide
theorem test_decode_lsr :
    decode [0x46, 0x9C, 0xEE] = .ok (.lsrZp 0x9C) [0xEE] ∧
    decode [0x4A, 0xEE] = .ok .lsrAcc [0xEE] ∧
    decode [0x4E, 0x34, 0x92, 0xEE] = .ok (.lsrAbs 0x9234) [0xEE] ∧
    decode [0x56, 0x9C, 0xEE] = .ok (.lsrZpX 0x9C) [0xEE] ∧
    decode [0x5E, 0x34, 0x92, 0xEE] = .ok (.lsrAbsX 0x9234) [0xEE] := by decide
theorem test_decode_nop :
    decode [0xEA, 0xEE] = .ok .nop [0xEE] := by decide
theorem test_decode_ora :
    decode [0x01, 0x9C, 0xEE] = .ok (.oraIndX 0x9C) [0xEE] ∧
    decode [0x05, 0x9C, 0xEE] = .ok (.oraZp 0x9C) [0xEE] ∧
    decode [0x09, 0x9C, 0xEE] = .ok (.oraImm 0x9C) [0xEE] ∧
    decode [0x0D, 0x34, 0x92, 0xEE] = .ok (.oraAbs 0x9234) [0xEE] ∧
    decode [0x11, 0x9C, 0xEE] = .ok (.oraIndY 0x9C) [0xEE] ∧
    decode [0x15, 0x9C, 0xEE] = .ok (.oraZpX 0x9C) [0xEE] ∧
    decode [0x19, 0x34, 0x92, 0xEE] = .ok (.oraAbsY 0x9234) [0xEE] ∧
    decode [0x1D, 0x34, 0x92, 0xEE] = .ok (.oraAbsX 0x9234) [0xEE] := by decide
theorem test_decode_pha :
    decode [0x48, 0xEE] = .ok .pha [0xEE] := by decide
theorem test_decode_php :
    decode [0x08, 0xEE] = .ok .php [0xEE] := by decide
theorem test_decode_pla :
    decode [0x68, 0xEE] = .ok .pla [0xEE] := by decide
theorem test_decode_plp :
    decode [0x28, 0xEE] = .ok .plp [0xEE] := by decide
theorem test_decode_rol :
    decode [0x26, 0x9C, 0xEE] = .ok (.rolZp 0x9C) [0xEE] ∧
    decode [0x2A, 0xEE] = .ok .rolAcc [0xEE] ∧
    decode [0x2E, 0x34, 0x92, 0xEE] = .ok (.rolAbs 0x9234) [0xEE] ∧
    decode [0x36, 0x9C, 0xEE] = .ok (.rolZpX 0x9C) [0xEE] ∧
    decode [0x3E, 0x34, 0x92, 0xEE] = .ok (.rolAbsX 0x9234) [0xEE] := by decide
theorem test_decode_ror :
    decode [0x66, 0x9C, 0xEE] = .ok (.rorZp 0x9C) [0xEE] ∧
    decode [0x6A, 0xEE] = .ok .rorAcc [0xEE] ∧
    decode [0x6E, 0x34, 0x92, 0xEE] = .ok (.rorAbs 0x9234) [0xEE] ∧
    decode [0x76, 0x9C, 0xEE] = .ok (.rorZpX 0x9C) [0xEE] ∧
    decode [0x7E, 0x34, 0x92, 0xEE] = .ok (.rorAbsX 0x9234) [0xEE] := by decide
theorem test_decode_rti :
    decode [0x40, 0xEE] = .ok .rti [0xEE] := by decide
theorem test_decode_rts :
    decode [0x60, 0xEE] = .ok .rts [0xEE] := by decide
theorem test_decode_sbc :
    decode [0xE1, 0x9C, 0xEE] = .ok (.sbcIndX 0x9C) [0xEE] ∧
    decode [0xE5, 0x9C, 0xEE] = .ok (.sbcZp 0x9C) [0xEE] ∧
    decode [0xE9, 0x9C, 0xEE] = .ok (.sbcImm 0x9C) [0xEE] ∧
    decode [0xED, 0x34, 0x92, 0xEE] = .ok (.sbcAbs 0x9234) [0xEE] ∧
    decode [0xF1, 0x9C, 0xEE] = .ok (.sbcIndY 0x9C) [0xEE] ∧
    decode [0xF5, 0x9C, 0xEE] = .ok (.sbcZpX 0x9C) [0xEE] ∧
    decode [0xF9, 0x34, 0x92, 0xEE] = .ok (.sbcAbsY 0x9234) [0xEE] ∧
    decode [0xFD, 0x34, 0x92, 0xEE] = .ok (.sbcAbsX 0x9234) [0xEE] := by decide
theorem test_decode_sec :
    decode [0x38, 0xEE] = .ok .sec [0xEE] := by decide
theorem test_decode_sed :
    decode [0xF8, 0xEE] = .ok .sed [0xEE] := by decide
theorem test_decode_sei :
    decode [0x78, 0xEE] = .ok .sei [0xEE] := by decide
theorem test_decode_sta :
    decode [0x81, 0x9C, 0xEE] = .ok (.staIndX 0x9C) [0xEE] ∧
    decode [0x85, 0x9C, 0xEE] = .ok (.staZp 0x9C) [0xEE] ∧
    decode [0x8D, 0x34, 0x92, 0xEE] = .ok (.staAbs 0x9234) [0xEE] ∧
    decode [0x91, 0x9C, 0xEE] = .ok (.staIndY 0x9C) [0xEE] ∧
    decode [0x95, 0x9C, 0xEE] = .ok (.staZpX 0x9C) [0xEE] ∧
    decode [0x99, 0x34, 0x92, 0xEE] = .ok (.staAbsY 0x9234) [0xEE] ∧
    decode [0x9D, 0x34, 0x92, 0xEE] = .ok (.staAbsX 0x9234) [0xEE] := by decide
theorem test_decode_stx :
    decode [0x86, 0x9C, 0xEE] = .ok (.stxZp 0x9C) [0xEE] ∧
    decode [0x8E, 0x34, 0x92, 0xEE] = .ok (.stxAbs 0x9234) [0xEE] ∧
    decode [0x96, 0x9C, 0xEE] = .ok (.stxZpY 0x9C) [0xEE] := by decide
theorem test_decode_sty :
    decode [0x84, 0x9C, 0xEE] = .ok (.styZp 0x9C) [0xEE] ∧
    decode [0x8C, 0x34, 0x92, 0xEE] = .ok (.styAbs 0x9234) [0xEE] ∧
    decode [0x94, 0x9C, 0xEE] = .ok (.styZpX 0x9C) [0xEE] := by decide
theorem test_decode_tax :
    decode [0xAA, 0xEE] = .ok .tax [0xEE] := by decide
theorem test_decode_tay :
    decode [0xA8, 0xEE] = .ok .tay [0xEE] := by decide
theorem test_decode_tsx :
    decode [0xBA, 0xEE] = .ok .tsx [0xEE] := by decide
theorem test_decode_txa :
    decode [0x8A, 0xEE] = .ok .txa [0xEE] := by decide
theorem test_decode_txs :
    decode [0x9A, 0xEE] = .ok .txs [0xEE] := by decide
theorem test_decode_tya :
    decode [0x98, 0xEE] = .ok .tya [0xEE] := by decide

theorem test_decode_refuses : decode [0x02] = .undefinedOpcode 0x02 ∧ decode [0xFF, 0x00, 0x00] = .undefinedOpcode 0xFF ∧
    decode [0x1A] = .undefinedOpcode 0x1A ∧ decode [0x80, 0x00] = .undefinedOpcode 0x80 ∧ decode [] = .truncated ∧
    decode [0xAD, 0x00] = .truncated ∧ decode [0xA5] = .truncated := by decide

/-- The table numbers bit 0 as the least significant bit of the first byte. -/
theorem test_table_word : decodeTableWord 24 0x0340AD = some (.ldaAbs 0x0340) ∧ decodeTableWord 8 0xA9 = some (.ldaImm 0x00) ∧
    decodeTableWord 16 0xFBD0 = some (.bne (-5)) ∧ decodeTableWord 8 0x02 = none := by decide

/-- The assembler notation of R92, from the examples of 95_test_vectors.md 1.1. -/
theorem test_assembly : assemblyText (.ldaIndY 0x20) = "LDA ($20),Y" ∧ assemblyText .rolAcc = "ROL A" ∧
    assemblyText (.jmpInd 0x4000) = "JMP ($4000)" ∧ assemblyText (.ldaImm 0x42) = "LDA #$42" := by decide

/-! Single steps, each from a row of 95_test_vectors.md part 2: start state `A=00 X=00 Y=00 S=FD`, flags all 0 but I. -/

/-- The start state of part 2. -/
def start : Cpu :=
  { a := 0x00, x := 0x00, y := 0x00, sp := 0xFD, pc := 0x0200, n := false, v := false, d := false, i := true, z := false,
    c := false, nmiPending := false }

/-- A storage with the listed bytes. -/
def cells : List Host.Cell → Memory
  | [] => []
  | (k, v) :: rest => (cells rest).write k v

/-- The bytes of an instruction at consecutive RAM addresses, as cells. -/
def code : Nat → List Byte → List Host.Cell
  | _, [] => []
  | k, b :: rest => (k, b) :: code (k + 1) rest

/-- A machine about to execute bytes in RAM at the CPU's PC. -/
def machine (r : Cpu) (bytes : List Byte) (ram : List Host.Cell) : State :=
  { State.reset with cpu := r, ram := cells (code r.pc.toNat bytes ++ ram) }

/-- Whether one step of a machine ends in a state that passes a check. -/
def stepsTo (s : State) (check : State → Bool) : Bool :=
  match step s with
  | .next t => check t
  | .fault _ => false
  | .refused _ => false

/-- A, X, Y and S. -/
def axys (s : State) : List Byte := [s.cpu.a, s.cpu.x, s.cpu.y, s.cpu.sp]

/-- N, V, D, I, Z and C. -/
def nvdizc (s : State) : List Bool := [s.cpu.n, s.cpu.v, s.cpu.d, s.cpu.i, s.cpu.z, s.cpu.c]

theorem test_lda_zero : stepsTo (machine start [0xA9, 0x00] []) (fun t => t.cpu.a == 0x00 && t.cpu.z && !t.cpu.n && t.cpu.pc == 0x0202) = true := by decide
theorem test_lda_negative : stepsTo (machine start [0xA9, 0x80] []) (fun t => t.cpu.a == 0x80 && !t.cpu.z && t.cpu.n) = true := by decide
theorem test_ldx : stepsTo (machine start [0xA2, 0xFF] []) (fun t => t.cpu.x == 0xFF && t.cpu.n) = true := by decide
theorem test_ldy : stepsTo (machine { start with n := true } [0xA0, 0x00] []) (fun t => t.cpu.y == 0x00 && t.cpu.z && !t.cpu.n) = true := by decide
theorem test_sta_zp : stepsTo (machine { start with a := 0x3C, z := true } [0x85, 0x10] []) (fun t => t.ram.read 0x10 == 0x3C && nvdizc t == [false, false, false, true, true, false]) = true := by decide
theorem test_sta_absX : stepsTo (machine { start with a := 0x3C, x := 0x05, pc := 0x0400 } [0x9D, 0xFE, 0x02] []) (fun t => t.ram.read 0x303 == 0x3C && t.cpu.pc == 0x0403) = true := by decide
theorem test_sta_mirror : stepsTo (machine { start with a := 0x77 } [0x8D, 0x00, 0x08] []) (fun t => t.readValue 0x0000 == 0x77 && t.readValue 0x1800 == 0x77) = true := by decide
theorem test_stx_zpY : stepsTo (machine { start with x := 0x3C, y := 0xF0 } [0x96, 0x20] []) (fun t => t.ram.read 0x10 == 0x3C && t.ram.read 0x110 == 0x00) = true := by decide
theorem test_sty_zp : stepsTo (machine { start with y := 0x3C } [0x84, 0x20] []) (fun t => t.ram.read 0x20 == 0x3C) = true := by decide

theorem test_lda_zpX_wraps : stepsTo (machine { start with x := 0xF0 } [0xB5, 0x20] [(0x10, 0xAA), (0x110, 0xBB)]) (fun t => t.cpu.a == 0xAA && t.cpu.n) = true := by decide
theorem test_ldx_zpY_wraps : stepsTo (machine { start with y := 0x01 } [0xB6, 0xFF] [(0x00, 0x77), (0x100, 0x88)]) (fun t => t.cpu.x == 0x77) = true := by decide
theorem test_lda_absX_wraps : stepsTo (machine { start with x := 0x01 } [0xBD, 0xFF, 0xFF] [(0x00, 0x11)]) (fun t => t.cpu.a == 0x11) = true := by decide
theorem test_lda_indX_wraps : stepsTo (machine start [0xA1, 0xFF] [(0xFF, 0x34), (0x00, 0x03), (0x100, 0x07), (0x334, 0x99), (0x734, 0x11)]) (fun t => t.cpu.a == 0x99 && t.cpu.n) = true := by decide
theorem test_lda_indY_wraps : stepsTo (machine { start with y := 0x01 } [0xB1, 0xFF] [(0xFF, 0xFF), (0x00, 0x02), (0x100, 0x06), (0x300, 0x42)]) (fun t => t.cpu.a == 0x42) = true := by decide
theorem test_jmp_ind_wraps : stepsTo (machine start [0x6C, 0xFF, 0x03] [(0x3FF, 0x00), (0x300, 0x05), (0x400, 0x06)]) (fun t => t.cpu.pc == 0x0500) = true := by decide
theorem test_jmp_abs : stepsTo (machine start [0x4C, 0x34, 0x12] []) (fun t => t.cpu.pc == 0x1234) = true := by decide

theorem test_tax : stepsTo (machine { start with a := 0x80 } [0xAA] []) (fun t => t.cpu.x == 0x80 && t.cpu.n && !t.cpu.z) = true := by decide
theorem test_tay : stepsTo (machine { start with y := 0x07 } [0xA8] []) (fun t => t.cpu.y == 0x00 && t.cpu.z) = true := by decide
theorem test_txa : stepsTo (machine { start with x := 0x7F, a := 0xFF } [0x8A] []) (fun t => t.cpu.a == 0x7F && !t.cpu.n && !t.cpu.z) = true := by decide
theorem test_tya : stepsTo (machine { start with y := 0xFF } [0x98] []) (fun t => t.cpu.a == 0xFF && t.cpu.n) = true := by decide
theorem test_tsx : stepsTo (machine { start with sp := 0x00, x := 0x05 } [0xBA] []) (fun t => t.cpu.x == 0x00 && t.cpu.z) = true := by decide
theorem test_txs : stepsTo (machine { start with n := true } [0x9A] []) (fun t => t.cpu.sp == 0x00 && t.cpu.n && !t.cpu.z) = true := by decide
theorem test_pha_wraps : stepsTo (machine { start with sp := 0x00, a := 0x5A } [0x48] []) (fun t => t.ram.read 0x100 == 0x5A && t.cpu.sp == 0xFF) = true := by decide
theorem test_pla_wraps : stepsTo (machine { start with sp := 0xFF } [0x68] [(0x100, 0x80)]) (fun t => t.cpu.a == 0x80 && t.cpu.sp == 0x00 && t.cpu.n) = true := by decide
theorem test_php : stepsTo (machine { start with n := true, c := true } [0x08] []) (fun t => t.ram.read 0x1FD == 0xB5 && t.cpu.sp == 0xFC && nvdizc t == [true, false, false, true, false, true]) = true := by decide
theorem test_plp_ones : stepsTo (machine { start with sp := 0xFC } [0x28] [(0x1FD, 0xFF)]) (fun t => t.cpu.sp == 0xFD && nvdizc t == [true, true, true, true, true, true]) = true := by decide
theorem test_plp_zeros : stepsTo (machine { start with sp := 0xFC, n := true, v := true, d := true, z := true, c := true } [0x28] []) (fun t => nvdizc t == [false, false, false, false, false, false]) = true := by decide

theorem test_adc_overflow : stepsTo (machine { start with a := 0x50 } [0x69, 0x50] []) (fun t => t.cpu.a == 0xA0 && nvdizc t == [true, true, false, true, false, false]) = true := by decide
theorem test_adc_binary_with_d : stepsTo (machine { start with a := 0x09, d := true } [0x69, 0x01] []) (fun t => t.cpu.a == 0x0A && nvdizc t == [false, false, true, true, false, false]) = true := by decide
theorem test_sbc_overflow : stepsTo (machine { start with a := 0x80, c := true } [0xE9, 0x01] []) (fun t => t.cpu.a == 0x7F && nvdizc t == [false, true, false, true, false, true]) = true := by decide
theorem test_sbc_borrow : stepsTo (machine { start with a := 0x05 } [0xE9, 0x05] []) (fun t => t.cpu.a == 0xFF && nvdizc t == [true, false, false, true, false, false]) = true := by decide
theorem test_cmp_less : stepsTo (machine { start with a := 0x40, v := true } [0xC9, 0x41] []) (fun t => t.cpu.a == 0x40 && nvdizc t == [true, true, false, true, false, false]) = true := by decide
theorem test_cmp_unsigned : stepsTo (machine { start with a := 0x80 } [0xC9, 0x00] []) (fun t => nvdizc t == [true, false, false, true, false, true]) = true := by decide
theorem test_cpx : stepsTo (machine { start with x := 0x04 } [0xE0, 0x04] []) (fun t => nvdizc t == [false, false, false, true, true, true]) = true := by decide
theorem test_cpy : stepsTo (machine { start with y := 0x20 } [0xC0, 0x10] []) (fun t => nvdizc t == [false, false, false, true, false, true]) = true := by decide
theorem test_inx : stepsTo (machine { start with x := 0xFF } [0xE8] []) (fun t => t.cpu.x == 0x00 && t.cpu.z && !t.cpu.n && !t.cpu.c) = true := by decide
theorem test_dex : stepsTo (machine start [0xCA] []) (fun t => t.cpu.x == 0xFF && t.cpu.n) = true := by decide
theorem test_iny : stepsTo (machine { start with y := 0x7F } [0xC8] []) (fun t => t.cpu.y == 0x80 && t.cpu.n && !t.cpu.v) = true := by decide
theorem test_dey : stepsTo (machine { start with y := 0x01 } [0x88] []) (fun t => t.cpu.y == 0x00 && t.cpu.z) = true := by decide
theorem test_inc : stepsTo (machine start [0xE6, 0x10] [(0x10, 0xFF)]) (fun t => t.ram.read 0x10 == 0x00 && t.cpu.z && !t.cpu.c) = true := by decide
theorem test_inc_rom_refused : outcomeRefusal (step (machine start [0xEE, 0x00, 0x80] [])) = some (.modifyOnDeviceOrRom 0x8000) := by decide
theorem test_dec : stepsTo (machine start [0xC6, 0x10] []) (fun t => t.ram.read 0x10 == 0xFF && t.cpu.n) = true := by decide

theorem test_and : stepsTo (machine { start with a := 0xF0 } [0x29, 0x0F] []) (fun t => t.cpu.a == 0x00 && t.cpu.z) = true := by decide
theorem test_ora : stepsTo (machine { start with a := 0x0F } [0x09, 0x80] []) (fun t => t.cpu.a == 0x8F && t.cpu.n) = true := by decide
theorem test_eor : stepsTo (machine { start with a := 0x0F } [0x49, 0xF0] []) (fun t => t.cpu.a == 0xFF && t.cpu.n) = true := by decide
theorem test_bit : stepsTo (machine { start with a := 0x01 } [0x24, 0x10] [(0x10, 0xC0)]) (fun t => t.cpu.a == 0x01 && nvdizc t == [true, true, false, true, true, false]) = true := by decide
theorem test_bit_v : stepsTo (machine { start with a := 0x40 } [0x24, 0x10] [(0x10, 0x40)]) (fun t => nvdizc t == [false, true, false, true, false, false]) = true := by decide
theorem test_asl : stepsTo (machine { start with a := 0x80, c := true } [0x0A] []) (fun t => t.cpu.a == 0x00 && nvdizc t == [false, false, false, true, true, true]) = true := by decide
theorem test_asl_memory : stepsTo (machine { start with a := 0x33 } [0x06, 0x10] [(0x10, 0x81)]) (fun t => t.ram.read 0x10 == 0x02 && t.cpu.c && t.cpu.a == 0x33) = true := by decide
theorem test_lsr : stepsTo (machine { start with a := 0x55 } [0x4A] []) (fun t => t.cpu.a == 0x2A && nvdizc t == [false, false, false, true, false, true]) = true := by decide
theorem test_rol : stepsTo (machine { start with a := 0x80, c := true } [0x2A] []) (fun t => t.cpu.a == 0x01 && nvdizc t == [false, false, false, true, false, true]) = true := by decide
theorem test_ror : stepsTo (machine { start with a := 0x80, c := true } [0x6A] []) (fun t => t.cpu.a == 0xC0 && nvdizc t == [true, false, false, true, false, false]) = true := by decide

theorem test_beq_taken : stepsTo (machine { start with z := true } [0xF0, 0x05] []) (fun t => t.cpu.pc == 0x0207) = true := by decide
theorem test_beq_not_taken : stepsTo (machine start [0xF0, 0x05] []) (fun t => t.cpu.pc == 0x0202) = true := by decide
theorem test_bne_self : stepsTo (machine start [0xD0, 0xFE] []) (fun t => t.cpu.pc == 0x0200) = true := by decide
theorem test_bne_backward : stepsTo (machine start [0xD0, 0x80] []) (fun t => t.cpu.pc == 0x0182) = true := by decide
theorem test_bcc : stepsTo (machine { start with c := true } [0x90, 0x02] []) (fun t => t.cpu.pc == 0x0202) = true := by decide
theorem test_bcs : stepsTo (machine { start with c := true } [0xB0, 0x02] []) (fun t => t.cpu.pc == 0x0204) = true := by decide
theorem test_bmi : stepsTo (machine { start with n := true } [0x30, 0x02] []) (fun t => t.cpu.pc == 0x0204) = true := by decide
theorem test_bpl : stepsTo (machine { start with n := true } [0x10, 0x02] []) (fun t => t.cpu.pc == 0x0202) = true := by decide
theorem test_bvc : stepsTo (machine { start with v := true } [0x50, 0x02] []) (fun t => t.cpu.pc == 0x0202) = true := by decide
theorem test_bvs : stepsTo (machine { start with v := true } [0x70, 0x02] []) (fun t => t.cpu.pc == 0x0204) = true := by decide
theorem test_jsr : stepsTo (machine { start with pc := 0x02FE } [0x20, 0x34, 0x12] []) (fun t => t.cpu.pc == 0x1234 && t.ram.read 0x1FD == 0x03 && t.ram.read 0x1FC == 0x00 && t.cpu.sp == 0xFB) = true := by decide
theorem test_rts : stepsTo (machine { start with sp := 0xFB, pc := 0x1234 } [] [(0x1234 % 0x800, 0x60), (0x1FC, 0x00), (0x1FD, 0x03)]) (fun t => t.cpu.pc == 0x0301 && t.cpu.sp == 0xFD) = true := by decide
theorem test_rts_wraps : stepsTo (machine { start with sp := 0xFB } [0x60] [(0x1FC, 0xFF), (0x1FD, 0xFF)]) (fun t => t.cpu.pc == 0x0000) = true := by decide

theorem test_clc : stepsTo (machine { start with c := true } [0x18] []) (fun t => nvdizc t == [false, false, false, true, false, false]) = true := by decide
theorem test_sec : stepsTo (machine start [0x38] []) (fun t => nvdizc t == [false, false, false, true, false, true]) = true := by decide
theorem test_cli : stepsTo (machine start [0x58] []) (fun t => nvdizc t == [false, false, false, false, false, false]) = true := by decide
theorem test_sei : stepsTo (machine { start with i := false } [0x78] []) (fun t => nvdizc t == [false, false, false, true, false, false]) = true := by decide
theorem test_cld : stepsTo (machine { start with d := true } [0xD8] []) (fun t => nvdizc t == [false, false, false, true, false, false]) = true := by decide
theorem test_sed : stepsTo (machine start [0xF8] []) (fun t => nvdizc t == [false, false, true, true, false, false]) = true := by decide
theorem test_clv : stepsTo (machine { start with v := true } [0xB8] []) (fun t => nvdizc t == [false, false, false, true, false, false]) = true := by decide
theorem test_nop : stepsTo (machine start [0xEA] []) (fun t => t.cpu.pc == 0x0201 && axys t == [0x00, 0x00, 0x00, 0xFD]) = true := by decide

/-- A machine whose interrupt vectors hold the bytes of 95_test_vectors.md 2.7 and 2.8. -/
def vectored (s : State) : State := { s with prg := [(0x3FFFA, 0x50), (0x3FFFB, 0xE0), (0x3FFFF, 0xE1)] }

theorem test_brk : stepsTo (vectored (machine { start with pc := 0x0300, i := false, c := true, d := true } [0x00, 0xEA] [])) (fun t => t.ram.read 0x1FD == 0x03 && t.ram.read 0x1FC == 0x02 && t.ram.read 0x1FB == 0x39 && t.cpu.sp == 0xFA && t.cpu.i && t.cpu.d && t.cpu.pc == 0xE100) = true := by decide
theorem test_rti : stepsTo (machine { start with sp := 0xFA } [0x40] [(0x1FB, 0xFF), (0x1FC, 0x34), (0x1FD, 0x12)]) (fun t => t.cpu.pc == 0x1234 && t.cpu.sp == 0xFD && nvdizc t == [true, true, true, true, true, true]) = true := by decide
theorem test_nmi : stepsTo (vectored (machine { start with pc := 0x8123, z := true, i := false, nmiPending := true } [] [])) (fun t => t.ram.read 0x1FD == 0x81 && t.ram.read 0x1FC == 0x23 && t.ram.read 0x1FB == 0x22 && t.cpu.sp == 0xFA && t.cpu.i && !t.cpu.nmiPending && t.cpu.pc == 0xE050) = true := by decide
theorem test_irq : stepsTo (vectored { machine { start with pc := 0xC000, sp := 0x01, n := true, v := true, i := false } [] [] with mmc3 := { Mmc3.powerOn with irqPending := true } }) (fun t => t.ram.read 0x101 == 0xC0 && t.ram.read 0x100 == 0x00 && t.ram.read 0x1FF == 0xE0 && t.cpu.sp == 0xFE && t.cpu.i && t.cpu.pc == 0xE100 && t.irqLine) = true := by decide
theorem test_reset_vector : (State.powerOn [(0x3FFFD, 0xE0)] [] []).cpu.pc = 0xE000 ∧ State.reset.cpu.i = true := by decide

theorem test_sta_absX_uncarried : stepsTo (machine { start with x := 0x12 } [0x9D, 0xF0, 0x1F] []) (fun t => t.cpu.pc == 0x0203) = true ∧
    outcomeRefusal (step (machine { start with x := 0x02 } [0x9D, 0x00, 0x20] [])) = some (.indexedStoreTouchesDevice 0x2002) := by decide
theorem test_lda_absX_refused : outcomeRefusal (step (machine { start with x := 0x0E } [0xBD, 0xF9, 0x20] [])) = some (.indexedReadTouchesDevice 0x2007) := by decide
theorem test_undefined_opcode : outcomeRefusal (step (machine start [0x1A] [])) = some (.undefinedOpcode 0x1A) := by decide

/-- The MMC3 of 95_test_vectors.md 2.10. -/
def mapper : Mmc3 :=
  { Mmc3.powerOn with r0 := 0x05, r1 := 0x08, r2 := 0x7F, r3 := 0x00, r4 := 0x01, r5 := 0x83, r6 := 0x05, r7 := 0x07 }

theorem test_prg_offset : mapper.prgOffset 0x9FFF = 0x0BFFF ∧ mapper.prgOffset 0xA000 = 0x0E000 ∧ mapper.prgOffset 0xDFFF = 0x3DFFF ∧
    { mapper with bankSelect := 0x80 }.prgOffset 0x8000 = 0x3C000 ∧ { mapper with bankSelect := 0x80 }.prgOffset 0xC000 = 0x0A000 ∧
    { mapper with r6 := 0x25 }.prgOffset 0x8000 = 0x0A000 ∧ mapper.prgOffset 0xFFFC = 0x3FFFC := by decide
theorem test_chr_offset : mapper.chrOffset 0x0000 = 0x01000 ∧ mapper.chrOffset 0x07FF = 0x017FF ∧ mapper.chrOffset 0x0C00 = 0x02400 ∧
    mapper.chrOffset 0x1000 = 0x1FC00 ∧ mapper.chrOffset 0x1FFF = 0x00FFF ∧
    { mapper with bankSelect := 0x40 }.chrOffset 0x1000 = 0x01000 ∧ { mapper with bankSelect := 0x40 }.chrOffset 0x0400 = 0x00000 := by decide

/-- The PPU register sequences of 95_test_vectors.md 2.11, past the warm-up. -/
def warm : State := { State.reset with ppu := { Ppu.powerOn with vblanksSeen := 2 } }

theorem test_address_writes : (((warm.afterWrite 0x2006 0x3F).afterWrite 0x2006 0x00).ppu.v = 0x3F00) ∧
    (warm.afterWrite 0x2006 0x3F).ppu.v = 0x0000 ∧ (warm.afterWrite 0x2006 0x3F).ppu.w = true := by decide
theorem test_scroll_writes : (warm.afterWrite 0x2005 0x7D).ppu.t = 0x000F ∧ (warm.afterWrite 0x2005 0x7D).ppu.fineX = 5 ∧
    ((warm.afterWrite 0x2005 0x7D).afterWrite 0x2005 0x5E).ppu.t = 0x616F := by decide
theorem test_ctrl_write : (warm.afterWrite 0x2000 0x03).ppu.t = 0x0C00 ∧ (warm.afterWrite 0x2008 0x80).ppu.ctrl = 0x80 := by decide
theorem test_data_write : ({ warm with ppu := { warm.ppu with v := 0x2000, ctrl := 0x04 } }.afterWrite 0x2007 0x41).ppu.v = 0x2020 ∧
    ({ warm with ppu := { warm.ppu with v := 0x2000 } }.afterWrite 0x2007 0x41).ppu.nametables.read 0 = 0x41 := by decide
theorem test_palette_write : ({ warm with ppu := { warm.ppu with v := 0x3F10 } }.afterWrite 0x2007 0x2A).ppu.palette.read 0 = 0x2A ∧
    ({ warm with ppu := { warm.ppu with v := 0x3F00 } }.afterWrite 0x2007 0xFF).ppu.palette.read 0 = 0x3F := by decide
theorem test_oam_attribute : { warm with ppu := { warm.ppu with oamAddr := 0x02, oam := [(2, 0xFF)] } }.readValue 0x2004 = 0xE3 := by decide
theorem test_file_offset : mapper.fileOffset 0xFFFC = some 0x4000C ∧ mapper.fileOffset 0x6000 = none ∧
    fixedFileOffset 0xE000 = some 0x3E010 ∧ mapper.cpuAddresses 0x3C010 = [0xC000] ∧ mapper.cpuAddresses 0x0F = [] ∧
    chrOffsetOfFile 0x5A010 = some 0x1A000 ∧ chrBank8 0x1A000 = 13 ∧ chrUnit1k 0x1A000 = 104 ∧ inesMapper inesHeader = 4 := by decide
theorem test_bank_16k : prgOffsetOfFile 0x4000C = some 0x3FFFC ∧ prgBank16 0x3FFFC = 15 ∧ offsetInBank16 0x3FFFC = 0x3FFC ∧
    bank15CpuAddress 0x4000C = some 0xFFFC ∧ bank15CpuAddress 0x10 = none ∧ prgOffsetOfFile 0x0F = none := by decide

/-! Witnesses: for each obligation with hypotheses, concrete states and operands that meet them, clause by clause and at
the ends of their ranges. -/

/-- A property of both ends of a range. -/
abbrev AtEnds {α : Type} (first last : α) (P : α → Prop) : Prop := P first ∧ P last

/-- A boundary on which the host does nothing. -/
def idle : HostInput :=
  { action := .none, buttons1 := 0x00, buttons2 := 0x00, frameIrq := false, dmcIrq := false, deferInterrupts := false,
    dots := 1 }

/-- The reset state with one boundary's input. -/
def given (inp : HostInput) : State := { State.reset with inputs := [inp] }

/-- The reset state with rendering on and the PPU in scanline 100: `vram_safe` is false. -/
def unsafeVram : State := { State.reset with ppu := { Ppu.powerOn with mask := 0x08, scanline := 100, vblanksSeen := 2 } }

theorem witness_DecodeOfEncode : Instr.wf (.bne (-128)) = true ∧ Instr.wf (.bne 127) = true ∧ Instr.wf (.ldaAbs 0xFFFF) = true ∧
    Instr.wf .brk = true := by decide +kernel

theorem witness_EncodeOfDecode : decode [0xA9, 0x42, 0x07] = .ok (.ldaImm 0x42) [0x07] ∧ decode [0x02] = .undefinedOpcode 0x02 ∧
    decode [0x20, 0x34] = .truncated ∧ decode [] = .truncated := by decide +kernel

theorem witness_OpcodeAloneDecides : decode [0xF0, 0x05] = .ok (.beq 5) [] ∧ decode [0xF0, 0x80, 0x01] = .ok (.beq (-128)) [0x01] ∧
    decode [0xFF] = .undefinedOpcode 0xFF ∧ decode [0x02, 0x01] = .undefinedOpcode 0x02 := by decide +kernel

/-- The hypotheses of `StepRunsDecodedInstruction`. -/
abbrev Fetches (s : State) (i : Instr) (rest : List Byte) : Prop :=
  s.nextInput.action = .none ∧ s.dma.active = false ∧
  (s.cpu.nmiPending = false ∨ (s.timed = false ∧ s.nextInput.deferInterrupts = true)) ∧
  (s.cpu.i = true ∨ s.takeInput.irqLine = false ∨ (s.timed = false ∧ s.nextInput.deferInterrupts = true)) ∧
  decode [s.plainByte s.cpu.pc, s.plainByte (s.cpu.pc + 1), s.plainByte (s.cpu.pc + 2)] = .ok i rest ∧
  ∀ k, k < lengthOf i → s.plain (s.cpu.pc + BitVec.ofNat 16 k) = true

theorem witness_StepRunsDecodedInstruction :
    Fetches (machine { start with pc := 0x07FD } [0xAD, 0x00, 0x03] []) (.ldaAbs 0x0300) [] ∧
    Fetches { machine { start with pc := 0x1FFF } [] [(0x7FF, 0xEA)] with timed := true } .nop [0x00, 0x00] ∧
    Fetches { machine { start with pc := 0xFFFF, i := false } [] [(0x000, 0x05)] with prg := [(0x3FFFF, 0xF0)] } (.beq 5) [0x00] ∧
    Fetches { machine { start with pc := 0x6000, i := false, nmiPending := true } [] [] with
      wram := [(0, 0x4C), (1, 0x34), (2, 0x12)], mmc3 := { Mmc3.powerOn with prgRamProtect := 0x80, irqPending := true }
      inputs := [{ idle with deferInterrupts := true }] } (.jmpAbs 0x1234) [] := by decide +kernel

theorem witness_FetchRefusals :
    (AtEnds (0x2000 : Addr) 0x5FFF fun pc => (machine { start with pc := pc } [] []).takeInput.nextMove
      (machine { start with pc := pc } [] []).nextInput = .instruction) ∧
    (machine start [0xFF] []).takeInput.nextMove (machine start [0xFF] []).nextInput = .instruction ∧
    (machine start [0xFF] []).plain 0x0200 = true ∧ opcodeLength ((machine start [0xFF] []).plainByte 0x0200) = none := by decide +kernel

/-- A state with NMI and IRQ pending and I clear. -/
def pendingBoth : State :=
  { State.reset with cpu := { start with i := false, nmiPending := true }, mmc3 := { Mmc3.powerOn with irqPending := true } }

theorem witness_BoundaryPriority :
    (given { idle with action := .resetButton }).nextInput.action = .resetButton ∧
    (given { idle with action := .powerCycle }).nextInput.action = .powerCycle ∧
    ((given idle).nextInput.action = .none ∧ (given idle).dma.active = false ∧ (given idle).cpu.nmiPending = false ∧
      (given idle).cpu.i = true) ∧
    ({ pendingBoth with dma := { Dma.powerOn with active := true } }.nextInput.action = .none) ∧
    (pendingBoth.nextInput.action = .none ∧ pendingBoth.dma.active = false ∧ pendingBoth.cpu.nmiPending = true ∧
      ¬(pendingBoth.timed = false ∧ pendingBoth.nextInput.deferInterrupts = true)) ∧
    (pendingBoth.cpu.i = false ∧ { pendingBoth with cpu := { start with i := false } }.cpu.nmiPending = false ∧
      { pendingBoth with cpu := { start with i := false } }.takeInput.irqLine = true) ∧
    ({ pendingBoth with inputs := [{ idle with deferInterrupts := true }] }.timed = false ∧
      { pendingBoth with inputs := [{ idle with deferInterrupts := true }] }.nextInput.deferInterrupts = true) := by decide +kernel

theorem witness_InterruptEntry :
    { pendingBoth with cpu := { start with i := false } }.nextMove idle = .irq := by decide +kernel

/-- The addresses at which a read is refused while `vram_safe` is false, and neighbours at which it is not. -/
theorem witness_LoadInstructions :
    unsafeVram.readAdmitted 0x2004 = false ∧ unsafeVram.readAdmitted 0x3FFF = false ∧ unsafeVram.readAdmitted 0x1FFF = true ∧
    unsafeVram.readAdmitted 0x2003 = true ∧ unsafeVram.readAdmitted 0x4004 = true ∧ State.reset.readAdmitted 0x2007 = true ∧
    (256 ≤ (lo (0x20F9 : Addr)).toNat + (0x0E : Byte).toNat ∧ readSensitive (wordOf (lo 0x20F9 + 0x0E) (hi 0x20F9)) = true) ∧
    ¬(256 ≤ (lo (0x2001 : Addr)).toNat + (0x01 : Byte).toNat) ∧ readSensitive (wordOf (lo 0x1FF0 + 0x17) (hi 0x1FF0)) = false ∧
    readSensitive 0x4015 = true ∧ readSensitive 0x4017 = true ∧ readSensitive 0x4014 = false ∧ readSensitive 0x4018 = false := by
  decide

theorem witness_StoreInstructions :
    State.reset.writeAdmitted 0x2000 0x40 = false ∧ State.reset.writeAdmitted 0x2000 0xBF = true ∧
    unsafeVram.writeAdmitted 0x2004 0x00 = false ∧ unsafeVram.writeAdmitted 0x3FFF 0x00 = false ∧
    unsafeVram.writeAdmitted 0x2005 0x00 = true ∧ unsafeVram.writeAdmitted 0x4014 0x02 = false ∧
    State.reset.writeAdmitted 0x4014 0x1F = true ∧ State.reset.writeAdmitted 0x4014 0x20 = false ∧
    State.reset.writeAdmitted 0x4014 0x5F = false ∧ State.reset.writeAdmitted 0x4014 0x60 = true ∧
    State.reset.writeAdmitted 0x4015 0x10 = false ∧ State.reset.writeAdmitted 0x4015 0x0F = true ∧
    readSensitive (wordOf (lo 0x2000 + 0x02) (hi 0x2000)) = true ∧ readSensitive (wordOf (lo 0x2000 + 0x01) (hi 0x2000)) = false := by
  decide

/-- The same addresses serve every instruction that reads through `ReadsAt` and `ReadsIndexed`, or writes through
`ModifiesAt`: the ends of the refused ranges of 20_memory.md R58(i). -/
theorem witness_ModifyInstructions :
    (0x2000 ≤ (0x2000 : Addr).toNat ∧ (0x2000 : Addr).toNat ≤ 0x5FFF) ∧ (0x2000 ≤ (0x5FFF : Addr).toNat ∧ (0x5FFF : Addr).toNat ≤ 0x5FFF) ∧
    0x8000 ≤ (0x8000 : Addr).toNat ∧
    (¬(0x2000 ≤ (0x1FFF : Addr).toNat) ∧ AtEnds (0x6000 : Addr) 0x7FFF fun a => ¬((0x2000 ≤ a.toNat ∧ a.toNat ≤ 0x5FFF) ∨ 0x8000 ≤ a.toNat)) := by decide +kernel

/-- The hypotheses and the cases of the statements about an instruction's answer: a store, a push, neither. -/
theorem witness_MemoryFrame :
    (exec (.staZp 0xFF) State.reset = .next (State.reset.afterWrite 0x00FF 0x00) ∧
      exec .pha State.reset = .next (State.reset.push 0x00) ∧ exec .nop State.reset = .next State.reset) ∧
    storeAddress (.staZp 0xFF) State.reset = some 0x00FF ∧ State.reset.storedCell 0x00FF = some (.ram, 0xFF) ∧
    State.reset.storedCell 0x2004 = some (.oam, 0) ∧ State.reset.storedCell 0x6000 = none ∧
    storeAddress .pha State.reset = none ∧ pushCount .pha = 1 ∧
    storeAddress .nop State.reset = none := ⟨⟨rfl, rfl, rfl⟩, by decide +kernel⟩

theorem witness_FlagWriters :
    (exec .tax State.reset = .next ((State.reset.setX 0x00).setNZ 0x00) ∧ exec .nop State.reset = .next State.reset) ∧
    mnemonicOf .tax ∉ ["ADC", "SBC", "BIT", "CLV", "PLP", "RTI"] ∧
    mnemonicOf .nop ∉ ["LDA", "LDX", "LDY", "TAX", "TAY", "TXA", "TYA", "TSX", "PLA", "ADC", "SBC", "AND", "ORA", "EOR",
      "INC", "DEC", "INX", "DEX", "INY", "DEY", "ASL", "LSR", "ROL", "ROR", "CMP", "CPX", "CPY", "BIT", "PLP", "RTI"] ∧
    mnemonicOf .nop ∉ ["SED", "CLD", "PLP", "RTI"] ∧ mnemonicOf .nop ∉ ["SEI", "CLI", "BRK", "PLP", "RTI"] ∧
    mnemonicOf .nop ∉ ["ADC", "SBC", "CMP", "CPX", "CPY", "ASL", "ROL", "LSR", "ROR", "SEC", "CLC", "PLP", "RTI"] :=
  ⟨⟨rfl, rfl⟩, by decide +kernel⟩

theorem witness_RegisterWriters : exec .nop State.reset = .next State.reset ∧ modeOf .nop ≠ .accumulator ∧
    mnemonicOf .nop ∉ ["LDA", "PLA", "TXA", "TYA", "ADC", "SBC", "AND", "ORA", "EOR"] ∧
    mnemonicOf .nop ∉ ["LDX", "TAX", "TSX", "INX", "DEX"] ∧ mnemonicOf .nop ∉ ["LDY", "TAY", "INY", "DEY"] ∧
    mnemonicOf .nop ∉ ["TXS", "PHA", "PLA", "PHP", "PLP", "JSR", "RTS", "BRK", "RTI"] ∧
    mnemonicOf .nop ∉ ["JMP", "JSR", "RTS", "RTI", "BRK", "BCC", "BCS", "BEQ", "BNE", "BMI", "BPL", "BVC", "BVS"] :=
  ⟨rfl, by decide +kernel⟩

theorem witness_PlainMemoryBus :
    State.reset.plain 0x1FFF = true ∧ State.reset.plain 0x2000 = false ∧ State.reset.plain 0x8000 = true ∧
    { State.reset with mmc3 := { Mmc3.powerOn with prgRamProtect := 0x80 } }.plain 0x7FFF = true ∧
    State.reset.mmc3.prgRamProtect.getLsbD 7 = false ∧ BitVec.getLsbD (0x80 : Byte) 7 = true ∧ BitVec.getLsbD (0x80 : Byte) 6 = false ∧
    BitVec.getLsbD (0xC0 : Byte) 6 = true ∧
    (AtEnds (0x6000 : Addr) 0x7FFF fun a => 0x6000 ≤ a.toNat ∧ a.toNat < 0x8000) := by decide +kernel

theorem witness_DeviceReads :
    (AtEnds (0x2000 : Addr) 0x3FFE fun a => 0x2000 ≤ a.toNat ∧ a.toNat < 0x4000 ∧ (a.toNat % 8 = 0 ∨ a.toNat % 8 = 1 ∨
      a.toNat % 8 = 3 ∨ a.toNat % 8 = 5 ∨ a.toNat % 8 = 6)) ∧
    (AtEnds (0x4000 : Addr) 0x4014 fun a => 0x4000 ≤ a.toNat ∧ a.toNat ≤ 0x4014) ∧
    (AtEnds (0x4018 : Addr) 0x5FFF fun a => 0x4018 ≤ a.toNat ∧ a.toNat < 0x6000) ∧
    (AtEnds (0x2002 : Addr) 0x3FFA fun a => 0x2000 ≤ a.toNat ∧ a.toNat < 0x4000 ∧ a.toNat % 8 = 2) := by decide +kernel

theorem witness_JumpInstructions :
    State.reset.readAdmitted 0x03FF = true ∧ (State.reset.afterRead 0x03FF).readAdmitted (wordOf (lo 0x03FF + 1) (hi 0x03FF)) = true ∧
    unsafeVram.readAdmitted 0x2004 = false ∧
    (unsafeVram.readAdmitted 0x2003 = true ∧ (unsafeVram.afterRead 0x2003).readAdmitted (wordOf (lo 0x2003 + 1) (hi 0x2003)) = false) ∧
    State.reset.plain 0x03FF = true ∧ State.reset.plain (wordOf (lo 0x03FF + 1) (hi 0x03FF)) = true := by decide +kernel

theorem witness_NmiOutput : warm.ppu.vblanksSeen = 2 ∧ BitVec.getLsbD (0x80 : Byte) 6 = false ∧
    { warm with ppu := { warm.ppu with vblank := true } }.ppu.vblanksSeen = 2 := by decide +kernel

theorem witness_StatusRead :
    AtEnds (0x2002 : Addr) 0x3FFA fun a => 0x2000 ≤ a.toNat ∧ a.toNat < 0x4000 ∧ a.toNat % 8 = 2 := by decide +kernel

theorem witness_OamPort : (AtEnds (0x2003 : Addr) 0x3FFB fun a => 0x2000 ≤ a.toNat ∧ a.toNat < 0x4000 ∧ a.toNat % 8 = 3) ∧
    (AtEnds (0x2004 : Addr) 0x3FFC fun a => 0x2000 ≤ a.toNat ∧ a.toNat < 0x4000 ∧ a.toNat % 8 = 4) ∧
    State.reset.ppu.vramSafe = true ∧ unsafeVram.ppu.vramSafe = false := by decide +kernel

theorem witness_PpuControlAndMask : (AtEnds (0x2000 : Addr) 0x3FF8 fun a => 0x2000 ≤ a.toNat ∧ a.toNat < 0x4000 ∧ a.toNat % 8 = 0) ∧
    (AtEnds (0x2001 : Addr) 0x3FF9 fun a => 0x2000 ≤ a.toNat ∧ a.toNat < 0x4000 ∧ a.toNat % 8 = 1) ∧
    BitVec.getLsbD (0x40 : Byte) 6 = true ∧ BitVec.getLsbD (0xBF : Byte) 6 = false ∧
    (AtEnds (0x2005 : Addr) 0x3FFD fun a => 0x2000 ≤ a.toNat ∧ a.toNat < 0x4000 ∧ a.toNat % 8 = 5) ∧
    (AtEnds (0x2006 : Addr) 0x3FFE fun a => 0x2000 ≤ a.toNat ∧ a.toNat < 0x4000 ∧ a.toNat % 8 = 6) := by decide +kernel

theorem witness_ScrollAndAddressWrites : warm.ppu.vblanksSeen = 2 ∧ warm.ppu.w = false ∧
    (AtEnds (0x2005 : Addr) 0x3FFD fun a => 0x2000 ≤ a.toNat ∧ a.toNat < 0x4000 ∧ a.toNat % 8 = 5) ∧
    (AtEnds (0x2006 : Addr) 0x3FFE fun a => 0x2000 ≤ a.toNat ∧ a.toNat < 0x4000 ∧ a.toNat % 8 = 6) ∧
    { warm with ppu := { warm.ppu with w := true } }.ppu.w = true ∧
    ({ warm with ppu := { warm.ppu with w := true, t := 0x1000 } }.afterWrite 0x2006 0x00).ppu.v.getLsbD 12 = true ∧
    warm.ppu.v.getLsbD 12 = false := by decide +kernel

theorem witness_VramPort :
    (AtEnds (0x2007 : Addr) 0x3FFF fun a => 0x2000 ≤ a.toNat ∧ a.toNat < 0x4000 ∧ a.toNat % 8 = 7) ∧
    State.reset.ppu.vramSafe = true ∧ unsafeVram.ppu.vramSafe = false ∧
    (BitVec.extractLsb' 0 14 (0x3EFF : BitVec 15)).toNat < 0x3F00 ∧ 0x3F00 ≤ (BitVec.extractLsb' 0 14 (0x3F00 : BitVec 15)).toNat ∧
    ({ warm with ppu := { warm.ppu with v := 0x0FFF } }.afterRead 0x2007).ppu.v.getLsbD 12 = true := by
  decide

theorem witness_ReadBufferDelay : State.reset.ppu.vramSafe = true ∧
    (BitVec.extractLsb' 0 14 State.reset.ppu.v).toNat < 0x3F00 ∧
    (BitVec.extractLsb' 0 14 (State.reset.ppu.v + (if State.reset.ppu.ctrl.getLsbD 2 then 32 else 1))).toNat < 0x3F00 := by decide +kernel

theorem witness_PpuMemoryMirrors : (0x1FFF : PpuAddr).toNat < 0x2000 ∧ 0x2000 ≤ (0x2000 : PpuAddr).toNat ∧
    (0x3EFF : PpuAddr).toNat < 0x3F00 ∧ 0x3F00 ≤ (0x3F00 : PpuAddr).toNat ∧ 0x3F00 ≤ (0x3FFF : PpuAddr).toNat := by decide +kernel

theorem witness_FramePositionAndNmi : State.reset.ppu.scanline < 262 ∧ State.reset.ppu.dot < 341 ∧
    { warm with ppu := { warm.ppu with ctrl := 0x80 } }.ppu.ctrl.getLsbD 7 = true ∧ warm.ppu.vblank = false ∧
    warm.cpu.nmiPending = false ∧ warm.ppu.scanline = 0 ∧ warm.ppu.dot = 0 := by decide +kernel

/-- Rendering on, in the standard pattern tables, at the start of a frame. -/
def rendering : State := { State.reset with ppu := { Ppu.powerOn with mask := 0x18, ctrl := 0x08 } }

theorem witness_SpriteFlagsBounded : rendering.ppu.rendering = true ∧ State.reset.ppu.rendering = false ∧
    { State.reset with ppu := { Ppu.powerOn with scanline := 261, sprite0Hit := true } }.ppuDot.ppu.scanline = 261 ∧
    { State.reset with ppu := { Ppu.powerOn with scanline := 261, sprite0Hit := true } }.ppuDot.ppu.dot = 1 ∧
    { State.reset with ppu := { Ppu.powerOn with sprite0Hit := true } }.ppuDot.ppu.sprite0Hit = true := by decide +kernel

theorem witness_Mmc3RegisterWrites :
    (AtEnds (0x8000 : Addr) 0x9FFE fun a => 0x8000 ≤ a.toNat ∧ a.toNat < 0xA000 ∧ a.toNat % 2 = 0) ∧
    (AtEnds (0x8001 : Addr) 0x9FFF fun a => 0x8000 ≤ a.toNat ∧ a.toNat < 0xA000 ∧ ¬a.toNat % 2 = 0) ∧
    (AtEnds (0xA000 : Addr) 0xBFFE fun a => 0xA000 ≤ a.toNat ∧ a.toNat < 0xC000 ∧ a.toNat % 2 = 0) ∧
    (AtEnds (0xA001 : Addr) 0xBFFF fun a => 0xA000 ≤ a.toNat ∧ a.toNat < 0xC000 ∧ ¬a.toNat % 2 = 0) ∧
    (AtEnds (0xC000 : Addr) 0xDFFE fun a => 0xC000 ≤ a.toNat ∧ a.toNat < 0xE000 ∧ a.toNat % 2 = 0) ∧
    (AtEnds (0xC001 : Addr) 0xDFFF fun a => 0xC000 ≤ a.toNat ∧ a.toNat < 0xE000 ∧ ¬a.toNat % 2 = 0) ∧
    (AtEnds (0xE000 : Addr) 0xFFFE fun a => 0xE000 ≤ a.toNat ∧ a.toNat % 2 = 0) ∧
    (AtEnds (0xE001 : Addr) 0xFFFF fun a => 0xE000 ≤ a.toNat ∧ ¬a.toNat % 2 = 0) := by decide +kernel

theorem witness_PrgWindows : AtEnds (0x8000 : Addr) 0xFFFF fun a => 0x8000 ≤ a.toNat := by decide +kernel

theorem witness_ChrWindows : AtEnds (0x0000 : PpuAddr) 0x1FFF fun a => a.toNat < 0x2000 := by decide +kernel

theorem witness_ScanlineCounterTarget :
    AtEnds (0x01 : Byte) 0xFF fun n => 1 ≤ ({ mapper with irqLatch := n, irqReload := true, irqEnable := true } : Mmc3).irqLatch.toNat ∧
      ({ mapper with irqLatch := n, irqReload := true, irqEnable := true } : Mmc3).irqReload = true ∧
      ({ mapper with irqLatch := n, irqReload := true, irqEnable := true } : Mmc3).irqEnable = true ∧
      ({ mapper with irqLatch := n, irqReload := true, irqEnable := true } : Mmc3).irqPending = false := by decide +kernel

theorem witness_ClocksPerFrame : rendering.ppu.rendering = true ∧ rendering.ppu.standardPatterns = true ∧
    rendering.ppu.scanline = 0 ∧ rendering.ppu.dot = 0 ∧ State.reset.ppu.rendering = false := by decide +kernel

theorem witness_ImageAndFileOffsets : (List.replicate 0x60010 (0x00 : Byte)).length = 0x60010 ∧
    (AtEnds (0x0000 : Addr) 0x7FFF fun a => a.toNat < 0x8000) ∧ (AtEnds (0xE000 : Addr) 0xFFFF fun a => 0xE000 ≤ a.toNat) ∧
    (AtEnds (0xC000 : Addr) 0xFFFF fun a => 0xC000 ≤ a.toNat) ∧ Mmc3.powerOn.bankSelect.getLsbD 7 = false :=
  ⟨by rw [List.length_replicate], by decide +kernel, by decide +kernel, by decide +kernel, by decide +kernel⟩

theorem witness_ApuRegisterWrites : (AtEnds (0x4000 : Addr) 0x4013 fun a => 0x4000 ≤ a.toNat ∧ a.toNat ≤ 0x4013) ∧
    BitVec.getLsbD (0x10 : Byte) 4 = true ∧ BitVec.getLsbD (0xEF : Byte) 4 = false := by decide +kernel

theorem witness_ApuIrqGate :
    { State.reset with apu := { Apu.powerOn with frameIrqInhibit := true } }.apu.frameIrqInhibit = true ∧
    State.reset.apu.dmcIrqEnabled = false ∧ State.reset.apu.frameIrqInhibit = false ∧
    (given { idle with frameIrq := true }).nextInput.frameIrq = true ∧ (given { idle with dmcIrq := true }).nextInput.dmcIrq = true ∧
    { State.reset with apu := { Apu.powerOn with dmcIrqEnabled := true } }.apu.dmcIrqEnabled = true := by decide +kernel

theorem witness_ControllerProtocol : { State.reset with pads := { Pads.powerOn with strobe := true } }.pads.strobe = true := by
  decide

theorem witness_OamDmaCopiesPage : (AtEnds (0x20 : Byte) 0x5F fun d => 0x20 ≤ d.toNat ∧ d.toNat ≤ 0x5F) ∧
    (AtEnds (0x1F : Byte) 0x60 fun d => ¬(0x20 ≤ d.toNat ∧ d.toNat ≤ 0x5F)) ∧ unsafeVram.ppu.vramSafe = false ∧
    State.reset.ppu.vramSafe = true ∧ State.reset.plain (wordOf 0x00 0x1F) = true ∧ State.reset.plain (wordOf 0x00 0xFF) = true := by
  decide

theorem witness_OamDmaCopiesPage_cycles : AtEnds (0x00 : Byte) 0xFF fun i =>
    ∃ v, { State.reset with timed := true, dma := { active := true, page := 0x02, index := i } }.dmaMove idle = .next v :=
  ⟨⟨_, rfl⟩, ⟨_, rfl⟩⟩

theorem witness_DmaStallsCpu : AtEnds (0x00 : Byte) 0xFF fun i => AtEnds (0x02 : Byte) 0x60 fun page =>
    { given idle with dma := { active := true, page := page, index := i } }.dma.active = true ∧
    { given idle with dma := { active := true, page := page, index := i } }.nextInput.action = .none ∧
    dmaPageRefused page = false := by decide +kernel

theorem witness_RomNeverWritten : stepsTo (machine start [0xEA] []) (fun _ => true) = true ∧
    stepsTo (given { idle with action := .resetButton }) (fun _ => true) = true ∧
    (given { idle with action := .resetButton }).takeInput.nextMove { idle with action := .resetButton } ≠ .instruction := by decide +kernel

theorem witness_InvariantAtReset : Memory.wf 0x40000 [(0x3FFFC, 0x01), (0x3FFFD, 0xE0)] = true ∧
    Memory.wf 0x20000 [(0, 0x01), (0x1FFFF, 0x80)] = true ∧ Memory.wf 0x2000 [(0x1FFF, 0xFF)] = true := by decide +kernel

theorem witness_InvariantKept : (machine start [0xEA] []).inv = true ∧ stepsTo (machine start [0xEA] []) (fun _ => true) = true ∧
    (given { idle with action := .powerCycle }).inv = true ∧
    { State.reset with ppu := { Ppu.powerOn with vblank := true, scanline := 241, dot := 1 } }.inv = true ∧
    { State.reset with ppu := { Ppu.powerOn with vblank := true, scanline := 261, dot := 0 } }.inv = true := by decide +kernel

theorem witness_RunEndsAtFirstVisit : endOfRun 0x0201 (machine start [0xEA] []) 1
    { machine start [0xEA] [] with cpu := { start with pc := 0x0201 }, ppu := { Ppu.powerOn with dot := 1 } } ∧
    ((runToEnd 0x0201 2 (machine start [0xEA] [])).map fun t => t.ppu.dot) = some 1 :=
  ⟨⟨by decide +kernel, by decide +kernel, fun j u h e => by
    obtain rfl : j = 0 := by omega
    cases e
    decide +kernel⟩, by decide +kernel⟩

end Sys2Proof.Tests
end

/-! PROOF of O56. The end of a run, read one step at a time from its first state, is what `runToEnd` computes by recursion on
its fuel (70_reset_and_hazards.md R390). -/

namespace Sys2Proof.Machine

/-- What the end test asks of a state (R8, R390). -/
theorem State.atEnd_iff {address : Addr} {s : State} :
    s.atEnd address = true ↔ s.cpu.pc = address ∧ s.dma.active = false := by
  unfold State.atEnd State.atInstructionBoundary
  rw [Bool.and_eq_true, Bool.not_eq_true', decide_eq_true_iff, and_comm]

/-- The first of some steps leads to a state from which the others are taken. -/
theorem stepsFrom_succ_eq_some {k : Nat} {s t : State} :
    stepsFrom (k + 1) s = some t ↔ ∃ u, outcomeState (step s) = some u ∧ stepsFrom k u = some t :=
  Option.bind_eq_some_iff

/-- Without fuel a run ends only where it starts. -/
theorem runToEnd_zero {address : Addr} {s : State} (h : s.atEnd address = false) : runToEnd address 0 s = none :=
  if_neg (by rw [h]; exact Bool.false_ne_true)

/-- A run that starts at its end takes no step. -/
theorem endOfRun_of_atEnd {address : Addr} {s t : State} {k : Nat} (h : s.atEnd address = true) :
    endOfRun address s k t ↔ k = 0 ∧ s = t := by
  constructor
  · rintro ⟨hsteps, -, hfirst⟩
    obtain rfl | hk := k.eq_zero_or_pos
    · exact ⟨rfl, Option.some.inj hsteps⟩
    · have hs : s.atEnd address = false := hfirst 0 s hk rfl
      rw [h] at hs
      contradiction
  · rintro ⟨rfl, rfl⟩
    exact ⟨rfl, h, fun j _ hj => absurd hj j.not_lt_zero⟩

/-- A run that starts before its end takes a step. -/
theorem not_endOfRun_zero {address : Addr} {s t : State} (h : s.atEnd address = false) :
    ¬ endOfRun address s 0 t := by
  rintro ⟨hsteps, ht, -⟩
  obtain rfl : s = t := Option.some.inj hsteps
  rw [h] at ht
  contradiction

/-- Before the end a run ends where the run from its next state does, one step later. -/
theorem endOfRun_succ {address : Addr} {s t : State} {k : Nat} (h : s.atEnd address = false) :
    endOfRun address s (k + 1) t ↔ ∃ u, outcomeState (step s) = some u ∧ endOfRun address u k t := by
  constructor
  · rintro ⟨hsteps, ht, hfirst⟩
    obtain ⟨u, hu, hut⟩ := stepsFrom_succ_eq_some.mp hsteps
    exact ⟨u, hu, hut, ht, fun j v hj hv =>
      hfirst (j + 1) v (Nat.succ_lt_succ hj) (stepsFrom_succ_eq_some.mpr ⟨u, hu, hv⟩)⟩
  · rintro ⟨u, hu, hut, ht, hfirst⟩
    refine ⟨stepsFrom_succ_eq_some.mpr ⟨u, hu, hut⟩, ht, fun j v hj hv => ?_⟩
    cases j with
    | zero =>
      obtain rfl : s = v := Option.some.inj hv
      exact h
    | succ j =>
      obtain ⟨u', hu', hv'⟩ := stepsFrom_succ_eq_some.mp hv
      obtain rfl : u = u' := Option.some.inj (hu.symm.trans hu')
      exact hfirst j v (Nat.lt_of_succ_lt_succ hj) hv'

/-- A run has at most one end: of two, the earlier would be a visit before the later. -/
theorem endOfRun_unique {address : Addr} {s t u : State} {j k : Nat}
    (hj : endOfRun address s j u) (hk : endOfRun address s k t) : j = k ∧ u = t := by
  obtain ⟨hju, huEnd, hjFirst⟩ := hj
  obtain ⟨hkt, htEnd, hkFirst⟩ := hk
  obtain hlt | rfl | hgt := Nat.lt_trichotomy j k
  · have hu := hkFirst j u hlt hju
    rw [huEnd] at hu
    contradiction
  · exact ⟨rfl, Option.some.inj (hju.symm.trans hkt)⟩
  · have ht := hjFirst k t hgt hkt
    rw [htEnd] at ht
    contradiction

/-- `runToEnd` finds the end of the run when it lies within the fuel, and only then (R390). -/
theorem runToEnd_eq_some_iff (address : Addr) (fuel : Nat) (s t : State) :
    runToEnd address fuel s = some t ↔ ∃ k, k ≤ fuel ∧ endOfRun address s k t := by
  induction fuel generalizing s with
  | zero =>
    cases hs : s.atEnd address with
    | true => simp [runToEnd_end hs, endOfRun_of_atEnd hs]
    | false => simp [runToEnd_zero hs, not_endOfRun_zero hs]
  | succ fuel ih =>
    cases hs : s.atEnd address with
    | true => simp [runToEnd_end hs, endOfRun_of_atEnd hs]
    | false =>
      rw [runToEnd_step hs, Option.bind_eq_some_iff]
      constructor
      · rintro ⟨u, hu, hrun⟩
        obtain ⟨k, hk, hend⟩ := (ih u).mp hrun
        exact ⟨k + 1, Nat.succ_le_succ hk, (endOfRun_succ hs).mpr ⟨u, hu, hend⟩⟩
      · rintro ⟨k, hk, hend⟩
        cases k with
        | zero => exact absurd hend (not_endOfRun_zero hs)
        | succ k =>
          obtain ⟨u, hu, hend'⟩ := (endOfRun_succ hs).mp hend
          exact ⟨u, hu, (ih u).mpr ⟨k, Nat.le_of_succ_le_succ hk, hend'⟩⟩

/-- Settles O56: `runToEnd` against `endOfRun` by induction on the fuel, and the end of a run is the only one. -/
theorem runEndsAtFirstVisit : Obligations.RunEndsAtFirstVisit := by
  intro address fuel s t
  refine ⟨runToEnd_eq_some_iff address fuel s t, fun k hk => ?_⟩
  have ⟨_, hend, _⟩ := hk
  obtain ⟨hpc, hdma⟩ := State.atEnd_iff.mp hend
  exact ⟨hpc, hdma, fun j u hj => endOfRun_unique hj hk⟩

end Sys2Proof.Machine

/-! PROOF of O55 and O54. The invariant holds of the power-on state, and each of a step's six moves keeps it: the host's
input, reset, power, the DMA engine's byte, the interrupt entries, the fetch and the instruction (60_exceptions.md R221). -/

namespace Sys2Proof.Machine

/-- The power-on state meets the invariant where the contents it is given are in canonical form (R37, R386): every other
storage lists nothing, no flag is set and the PPU stands at (0, 0). -/
theorem powerOn_inv {prg chr wram : Memory} (hprg : prg.wf Config.prgSize = true) (hchr : chr.wf Config.chrSize = true)
    (hwram : wram.wf Config.wramSize = true) : (State.powerOn prg chr wram).inv = true :=
  (inv_iff _).2 ⟨rfl, hwram, hprg, hchr, rfl, rfl, rfl, rfl, rfl, Nat.zero_le _, nofun, nofun, nofun⟩

/-- Settles O54: `State.powerOn` meets the invariant, and the reset state is the power-on state of empty contents. -/
theorem invariantAtReset : Obligations.InvariantAtReset :=
  ⟨fun _ _ _ => powerOn_inv, powerOn_inv rfl rfl rfl⟩

/-- An interrupt request of the host's script obeys the gates of R229. -/
theorem takeInput_inv {s : State} (hs : s.inv = true) : s.takeInput.inv = true := by
  rw [inv_iff] at hs ⊢
  obtain ⟨hram, hwram, hprg, hchr, hnt, hpal, hoam, hpalOk, hframe, hseen, hdma, hframeIrq, hdmcIrq⟩ := hs
  refine ⟨hram, hwram, hprg, hchr, hnt, hpal, hoam, hpalOk, hframe, hseen, hdma, fun e => ?_, fun e => ?_⟩
  · simp only [State.takeInput, Apu.request, Bool.or_eq_true, Bool.and_eq_true, Bool.not_eq_true'] at e ⊢
    exact e.elim hframeIrq And.right
  · simp only [State.takeInput, Apu.request, Bool.or_eq_true, Bool.and_eq_true] at e ⊢
    exact e.elim hdmcIrq And.right

/-- The reset button stops the DMA engine and opens the frame IRQ's gate, and the PPU stays at its place (R226). -/
theorem takeReset_inv {s : State} (hs : s.inv = true) : s.takeReset.inv = true := by
  rw [inv_iff] at hs ⊢
  obtain ⟨hram, hwram, hprg, hchr, hnt, hpal, hoam, hpalOk, hframe, -, -, -, -⟩ := hs
  exact ⟨hram, hwram, hprg, hchr, hnt, hpal, hoam, hpalOk, hframe, Nat.zero_le _, nofun, fun _ => rfl, nofun⟩

/-- A power cycle keeps the image and WRAM, which are in canonical form (R246). -/
theorem powerCycle_inv {s : State} (hs : s.inv = true) : s.powerCycle.inv = true := by
  rw [inv_iff] at hs
  obtain ⟨-, hwram, hprg, hchr, -⟩ := hs
  exact powerOn_inv hprg hchr hwram

/-- Consecutive reads keep the invariant. -/
theorem readBytes_inv {k : Nat} {a : Addr} {s t : State} {bytes : List Byte} (h : readBytes k a s = .ok (bytes, t))
    (hs : s.inv = true) : t.inv = true := by
  induction k generalizing a s bytes with
  | zero =>
    cases h
    exact hs
  | succ k ih =>
    unfold readBytes at h
    split at h
    · cases h
    next h1 =>
      split at h
      · cases h
      next h2 =>
        cases h
        exact ih h2 (memRead_inv h1 hs)

/-- The fetch reads and moves PC, so it keeps the invariant (R84). -/
theorem fetch_inv {s t : State} {i : Instr} (h : fetch s = .ok (i, t)) (hs : s.inv = true) : t.inv = true := by
  unfold fetch at h
  split at h
  · cases h
  split at h
  · cases h
  next h1 =>
    split at h
    · cases h
    split at h
    · cases h
    next h2 =>
      split at h <;> cases h
      rw [State.setPc, cpu_inv]
      exact readBytes_inv h2 (memRead_inv h1 hs)

/-- An instruction keeps the invariant, whichever of the six shapes its effect has (R100). -/
theorem exec_inv {i : Instr} {s t : State} (h : exec i s = .next t) (hs : s.inv = true) : t.inv = true := by
  cases exec_shape i s t h with
  | cpu _ _ ht => rwa [ht, cpu_inv]
  | read _ _ _ _ u hr ht =>
    rw [ht, cpu_inv]
    exact memRead_inv hr hs
  | pointer _ _ _ _ _ _ u v hr hr' ht =>
    rw [ht, cpu_inv]
    exact memRead_inv hr' (memRead_inv hr hs)
  | store _ _ _ hw => exact memWrite_inv hw hs
  | modify _ _ _ u _ _ _ _ _ hr hw =>
    have hu : u.inv = true := memRead_inv hr hs
    exact memWrite_inv hw (by rwa [cpu_inv])
  | push _ ht _ hw =>
    rw [inv_iff] at hs
    obtain ⟨hram, hrest⟩ := hs
    rw [ht, inv_iff]
    exact ⟨hw hram, hrest⟩

/-- Settles O55: each of the six moves of a step keeps the invariant, and so does the time after it. -/
theorem invariantKept : Obligations.InvariantKept := by
  intro s t hs h
  have hin : s.takeInput.inv = true := takeInput_inv hs
  obtain rfl | rfl | ⟨active, u, hu, rfl⟩ | rfl | rfl | ⟨-, i, u, v, hf, hv, rfl⟩ := step_cases h
  case inl => exact elapse_inv _ _ (takeReset_inv hin)
  case inr.inl => exact powerCycle_inv hin
  case inr.inr.inl => exact elapse_inv _ _ (dmaStep_inv hu active hin)
  case inr.inr.inr.inl => exact elapse_inv _ _ (enter_inv (s := s.takeInput.setNmiPending false) _ _ _ hin)
  case inr.inr.inr.inr.inl => exact elapse_inv _ _ (enter_inv _ _ _ hin)
  case inr.inr.inr.inr.inr => exact elapse_inv _ _ (exec_inv hv (fetch_inv hf hin))

end Sys2Proof.Machine

/-! PROOF of O53. No operation of the machine writes the image, and WRAM is written by instructions only
(10_state.md R20, R21). -/

namespace Sys2Proof.Machine

/-- The cartridge's memories, ROM and WRAM, are the same in two states. -/
structure SameCartridge (s t : State) : Prop where
  prg : t.prg = s.prg
  chr : t.chr = s.chr
  wram : t.wram = s.wram

theorem SameCartridge.trans {s t u : State} (h : SameCartridge s t) (h' : SameCartridge t u) : SameCartridge s u :=
  ⟨h'.prg.trans h.prg, h'.chr.trans h.chr, h'.wram.trans h.wram⟩

theorem ReadFrame.sameCartridge {s t : State} (h : ReadFrame s t) : SameCartridge s t := ⟨h.prg, h.chr, h.wram⟩

theorem ppuRun_sameCartridge (k : Nat) (s : State) : SameCartridge s (State.ppuRun k s) := by
  rw [(ppuRun_frame k s).rest]
  exact ⟨rfl, rfl, rfl⟩

/-- Time passing moves the PPU, which writes no cartridge memory (R9). -/
theorem SameCartridge.elapse {s t : State} (h : SameCartridge s t) (inp : HostInput) (n : Nat) :
    SameCartridge s (t.elapse inp n) := by
  unfold State.elapse
  split
  · have hcycles : SameCartridge s { t with cycles := t.cycles + n } := ⟨h.prg, h.chr, h.wram⟩
    exact hcycles.trans (ppuRun_sameCartridge _ _)
  · exact h.trans (ppuRun_sameCartridge _ t)

/-- The DMA engine reads the CPU's bus and writes OAM (R318). -/
theorem dmaStep_sameCartridge {s t : State} (h : s.dmaStep = .ok t) : SameCartridge s t := by
  unfold State.dmaStep at h
  split at h <;> cases h
  next hr => exact (memRead_frame hr).sameCartridge.trans ⟨rfl, rfl, rfl⟩

/-- The fetch reads the CPU's bus and moves PC (R84). -/
theorem fetch_sameCartridge {s t : State} {i : Instr} (h : fetch s = .ok (i, t)) : SameCartridge s t := by
  obtain ⟨u, len, hu, rfl⟩ := fetch_frame h
  exact hu.sameCartridge.trans ⟨rfl, rfl, rfl⟩

/-- What a step does to the cartridge: nothing, or it is an instruction and leaves the image alone. -/
theorem step_cartridge {s t : State} (h : step s = .next t) :
    SameCartridge s t ∨ (s.takeInput.nextMove s.nextInput = .instruction ∧ t.prg = s.prg ∧ t.chr = s.chr) := by
  have hin : SameCartridge s s.takeInput := ⟨rfl, rfl, rfl⟩
  obtain rfl | rfl | ⟨-, u, hu, rfl⟩ | rfl | rfl | ⟨hmove, i, u, v, hf, hv, rfl⟩ := step_cases h
  case inl =>
    have hreset : SameCartridge s s.takeInput.takeReset := ⟨rfl, rfl, rfl⟩
    exact .inl (hreset.elapse _ _)
  case inr.inl => exact .inl ⟨rfl, rfl, rfl⟩
  case inr.inr.inl => exact .inl ((hin.trans (dmaStep_sameCartridge hu)).elapse _ _)
  case inr.inr.inr.inl =>
    have hentry : SameCartridge s s.takeInput.takeNmi := ⟨rfl, rfl, rfl⟩
    exact .inl (hentry.elapse _ _)
  case inr.inr.inr.inr.inl =>
    have hentry : SameCartridge s s.takeInput.takeIrq := ⟨rfl, rfl, rfl⟩
    exact .inl (hentry.elapse _ _)
  case inr.inr.inr.inr.inr =>
    have hu : SameCartridge s u := hin.trans (fetch_sameCartridge hf)
    have htime : SameCartridge v (v.elapse s.nextInput (cyclesOf i u)) := SameCartridge.elapse ⟨rfl, rfl, rfl⟩ _ _
    obtain ⟨hprg, hchr⟩ := exec_rom hv
    exact .inr ⟨hmove, htime.prg.trans (hprg.trans hu.prg), htime.chr.trans (hchr.trans hu.chr)⟩

/-- Settles O53: of the six moves of a step only the instruction can write WRAM, and none can write the image. -/
theorem romNeverWritten : Obligations.RomNeverWritten := by
  intro s t h
  obtain hsame | ⟨hmove, hprg, hchr⟩ := step_cartridge h
  · exact ⟨hsame.prg, hsame.chr, fun _ => hsame.wram⟩
  · exact ⟨hprg, hchr, fun hm => absurd hmove hm⟩

end Sys2Proof.Machine

/-! PROOF of O20. A pull right after a push gives the pushed byte and the old S, wherever S stands (10_state.md R12). -/

namespace Sys2Proof.Machine

theorem pullByte_push (s : State) (v : Byte) : (s.push v).pullByte = v := by
  rw [State.pullByte, push_eq, sub_one_add_one, Memory.read_write_same]

theorem pulled_push (s : State) (v : Byte) : (s.push v).pulled = { s with ram := (s.push v).ram } := by
  simp only [State.pulled, State.setSp, push_eq, sub_one_add_one]

/-- The flags of a status byte are the flags it was made of (R14, R15). -/
theorem setP_pByte (s : State) (b : Bool) : s.setP (s.cpu.pByte b) = s := by
  simp only [State.setP, pByte_getLsbD_7, pByte_getLsbD_6, pByte_getLsbD_3, pByte_getLsbD_2, pByte_getLsbD_1,
    pByte_getLsbD_0]

theorem exec_pha (s : State) : exec .pha s = .next (s.push s.cpu.a) := rfl
theorem exec_php (s : State) : exec .php s = .next (s.push (s.cpu.pByte true)) := rfl
theorem exec_pla (s : State) : exec .pla s = .next ((s.pulled.setA s.pullByte).setNZ s.pullByte) := rfl
theorem exec_plp (s : State) : exec .plp s = .next (s.pulled.setP s.pullByte) := rfl

/-- PHA then PLA: A is pulled as it was pushed, and N and Z are set from it (R136, R137). -/
theorem exec_pla_push (s : State) :
    exec .pla (s.push s.cpu.a) = .next ({ s with ram := (s.push s.cpu.a).ram }.setNZ s.cpu.a) := by
  rw [exec_pla, pullByte_push, pulled_push]
  rfl

/-- PHP then PLP: the flags are pulled as they were pushed (R138, R139). -/
theorem exec_plp_push (s : State) :
    exec .plp (s.push (s.cpu.pByte true)) = .next { s with ram := (s.push (s.cpu.pByte true)).ram } := by
  rw [exec_plp, pullByte_push, pulled_push]
  exact congrArg Host.Outcome.next (setP_pByte { s with ram := (s.push (s.cpu.pByte true)).ram } true)

/-- The RAM after two pushes. -/
def pushedTwo (m : Memory) (sp first second : Byte) : Memory :=
  (m.write (stackIndex sp) first).write (stackIndex (sp - 1)) second

theorem pushedTwo_first (m : Memory) (sp a b : Byte) : (pushedTwo m sp a b).read (stackIndex sp) = a := by
  unfold pushedTwo
  rw [Memory.read_write_other _ _ (stackIndex_sub_one sp).symm, Memory.read_write_same]

theorem pushedTwo_second (m : Memory) (sp a b : Byte) : (pushedTwo m sp a b).read (stackIndex (sp - 1)) = b :=
  Memory.read_write_same _ _ _

theorem pushedTwo_other (m : Memory) (sp a b : Byte) {k : Nat} (h1 : k ≠ stackIndex sp)
    (h2 : k ≠ stackIndex (sp - 1)) : (pushedTwo m sp a b).read k = m.read k := by
  unfold pushedTwo
  rw [Memory.read_write_other _ _ h2, Memory.read_write_other _ _ h1]

/-- JSR as one record update (R183). -/
theorem exec_jsr (s : State) (target : Addr) :
    exec (.jsr target) s = .next { s with
      cpu := { s.cpu with sp := s.cpu.sp - 2, pc := target }
      ram := pushedTwo s.ram s.cpu.sp (hi (s.cpu.pc - 1)) (lo (s.cpu.pc - 1)) } := by
  show Host.Outcome.next (((s.push (hi (s.cpu.pc - 1))).push (lo (s.cpu.pc - 1))).setPc target) = _
  simp only [push_eq, State.setPc, pushedTwo, sub_one_one]

/-- RTS as one record update (R184). -/
theorem exec_rts (s : State) :
    exec .rts s = .next { s with cpu := { s.cpu with
      sp := s.cpu.sp + 2
      pc := wordOf (s.ram.read (stackIndex (s.cpu.sp + 1))) (s.ram.read (stackIndex (s.cpu.sp + 2))) + 1 } } := by
  show Host.Outcome.next (s.pulled.pulled.setPc (wordOf s.pullByte s.pulled.pullByte + 1)) = _
  simp only [State.pulled, State.pullByte, State.setSp, State.setPc, add_one_one]

/-- RTS from a state whose stack JSR left: S and PC are those before the call (R183, R184). -/
theorem exec_rts_called (s : State) (target : Addr) :
    exec .rts { s with
      cpu := { s.cpu with sp := s.cpu.sp - 2, pc := target }
      ram := pushedTwo s.ram s.cpu.sp (hi (s.cpu.pc - 1)) (lo (s.cpu.pc - 1)) } =
    .next { s with ram := pushedTwo s.ram s.cpu.sp (hi (s.cpu.pc - 1)) (lo (s.cpu.pc - 1)) } := by
  rw [exec_rts]
  simp only [sub_two_add_one, pushedTwo_first, pushedTwo_second, wordOf_lo_hi, BitVec.sub_add_cancel]

/-- Settles O20: each pair of instructions pushes and pulls the same bytes, and a push writes one stack byte. -/
theorem stackRoundTrips : Obligations.StackRoundTrips := by
  intro s target
  refine ⟨⟨_, _, exec_pha s, exec_pla_push s, rfl, fun k => push_read s _⟩,
    ⟨_, _, exec_php s, exec_plp_push s, rfl, fun k => push_read s _⟩,
    ⟨_, _, exec_jsr s target, rfl, exec_rts_called s target, rfl, fun k => pushedTwo_other _ _ _ _⟩⟩

end Sys2Proof.Machine

/-! PROOF of O30 and O31. Each instruction keeps every register and flag of which its mnemonic is no writer: the bus keeps
them all, and the effect of each mnemonic writes the ones R10 and R17 list (10_state.md R10, R17). -/

namespace Sys2Proof.Machine

/-- Every register and flag is kept of which the instruction is no writer in the lists of R10 and R17. -/
structure Kept (instr : Instr) (r r' : Cpu) : Prop where
  a : mnemonicOf instr ∉ ["LDA", "PLA", "TXA", "TYA", "ADC", "SBC", "AND", "ORA", "EOR"] →
    modeOf instr ≠ .accumulator → r'.a = r.a
  x : mnemonicOf instr ∉ ["LDX", "TAX", "TSX", "INX", "DEX"] → r'.x = r.x
  y : mnemonicOf instr ∉ ["LDY", "TAY", "INY", "DEY"] → r'.y = r.y
  sp : mnemonicOf instr ∉ ["TXS", "PHA", "PLA", "PHP", "PLP", "JSR", "RTS", "BRK", "RTI"] → r'.sp = r.sp
  pc : mnemonicOf instr ∉ ["JMP", "JSR", "RTS", "RTI", "BRK", "BCC", "BCS", "BEQ", "BNE", "BMI", "BPL", "BVC", "BVS"] →
    r'.pc = r.pc
  nz : mnemonicOf instr ∉ ["LDA", "LDX", "LDY", "TAX", "TAY", "TXA", "TYA", "TSX", "PLA", "ADC", "SBC", "AND", "ORA", "EOR",
      "INC", "DEC", "INX", "DEX", "INY", "DEY", "ASL", "LSR", "ROL", "ROR", "CMP", "CPX", "CPY", "BIT",
      "PLP", "RTI"] → r'.n = r.n ∧ r'.z = r.z
  v : mnemonicOf instr ∉ ["ADC", "SBC", "BIT", "CLV", "PLP", "RTI"] → r'.v = r.v
  d : mnemonicOf instr ∉ ["SED", "CLD", "PLP", "RTI"] → r'.d = r.d
  i : mnemonicOf instr ∉ ["SEI", "CLI", "BRK", "PLP", "RTI"] → r'.i = r.i
  c : mnemonicOf instr ∉ ["ADC", "SBC", "CMP", "CPX", "CPY", "ASL", "ROL", "LSR", "ROR", "SEC", "CLC", "PLP", "RTI"] →
    r'.c = r.c

theorem Kept.trans {i : Instr} {r r' r'' : Cpu} (h : Kept i r r') (h' : Kept i r' r'') : Kept i r r'' where
  a hm hmode := (h'.a hm hmode).trans (h.a hm hmode)
  x hm := (h'.x hm).trans (h.x hm)
  y hm := (h'.y hm).trans (h.y hm)
  sp hm := (h'.sp hm).trans (h.sp hm)
  pc hm := (h'.pc hm).trans (h.pc hm)
  nz hm := ⟨(h'.nz hm).1.trans (h.nz hm).1, (h'.nz hm).2.trans (h.nz hm).2⟩
  v hm := (h'.v hm).trans (h.v hm)
  d hm := (h'.d hm).trans (h.d hm)
  i hm := (h'.i hm).trans (h.i hm)
  c hm := (h'.c hm).trans (h.c hm)

/-- The bus writes no register and no flag. -/
theorem BusFrame.kept {s t : State} (h : BusFrame s t) (i : Instr) : Kept i s.cpu t.cpu where
  a _ _ := h.a
  x _ := h.x
  y _ := h.y
  sp _ := h.sp
  pc _ := h.pc
  nz _ := ⟨h.n, h.z⟩
  v _ := h.v
  d _ := h.d
  i _ := h.i
  c _ := h.c

/-! ### The effect of each mnemonic that has more than one form. -/

section effects
variable {i : Instr} (s : State) (m : Byte)

theorem adc_kept (hi : mnemonicOf i = "ADC") : Kept i s.cpu (s.adc m).cpu := by
  constructor <;> simp [hi, State.adc]
theorem sbc_kept (hi : mnemonicOf i = "SBC") : Kept i s.cpu (s.sbc m).cpu := by
  constructor <;> simp [hi, State.sbc, State.adc]
theorem and_kept (hi : mnemonicOf i = "AND") : Kept i s.cpu (s.and m).cpu := by
  constructor <;> simp [hi, State.and]
theorem ora_kept (hi : mnemonicOf i = "ORA") : Kept i s.cpu (s.ora m).cpu := by
  constructor <;> simp [hi, State.ora]
theorem eor_kept (hi : mnemonicOf i = "EOR") : Kept i s.cpu (s.eor m).cpu := by
  constructor <;> simp [hi, State.eor]
theorem lda_kept (hi : mnemonicOf i = "LDA") : Kept i s.cpu (s.lda m).cpu := by
  constructor <;> simp [hi, State.lda]
theorem ldx_kept (hi : mnemonicOf i = "LDX") : Kept i s.cpu (s.ldx m).cpu := by
  constructor <;> simp [hi, State.ldx]
theorem ldy_kept (hi : mnemonicOf i = "LDY") : Kept i s.cpu (s.ldy m).cpu := by
  constructor <;> simp [hi, State.ldy]
theorem bit_kept (hi : mnemonicOf i = "BIT") : Kept i s.cpu (s.bitTest m).cpu := by
  constructor <;> simp [hi, State.bitTest]
theorem cmp_kept (hi : mnemonicOf i = "CMP") : Kept i s.cpu (s.cmp m).cpu := by
  constructor <;> simp [hi, State.cmp, State.compare]
theorem cpx_kept (hi : mnemonicOf i = "CPX") : Kept i s.cpu (s.cpx m).cpu := by
  constructor <;> simp [hi, State.cpx, State.compare]
theorem cpy_kept (hi : mnemonicOf i = "CPY") : Kept i s.cpu (s.cpy m).cpu := by
  constructor <;> simp [hi, State.cpy, State.compare]
theorem asl_kept (hi : mnemonicOf i = "ASL") : Kept i s.cpu (s.asl m).2.cpu := by
  constructor <;> simp [hi, State.asl]
theorem lsr_kept (hi : mnemonicOf i = "LSR") : Kept i s.cpu (s.lsr m).2.cpu := by
  constructor <;> simp [hi, State.lsr]
theorem rol_kept (hi : mnemonicOf i = "ROL") : Kept i s.cpu (s.rol m).2.cpu := by
  constructor <;> simp [hi, State.rol]
theorem ror_kept (hi : mnemonicOf i = "ROR") : Kept i s.cpu (s.ror m).2.cpu := by
  constructor <;> simp [hi, State.ror]
theorem inc_kept (hi : mnemonicOf i = "INC") : Kept i s.cpu (s.inc m).2.cpu := by
  constructor <;> simp [hi, State.inc]
theorem dec_kept (hi : mnemonicOf i = "DEC") : Kept i s.cpu (s.dec m).2.cpu := by
  constructor <;> simp [hi, State.dec]

end effects

/-! ### The shapes of an instruction's meaning: what is kept by the effect is kept by the instruction. -/

section shapes
variable {i : Instr} {s t : State}

theorem next_kept {u : State} (h : Host.Outcome.next u = (.next t : Result)) (hu : Kept i s.cpu u.cpu) :
    Kept i s.cpu t.cpu :=
  Host.Outcome.next.inj h ▸ hu

theorem onRead_kept {a : Addr} {effect : State → Byte → State} (h : onRead (memRead a s) effect = .next t)
    (he : ∀ u m, Kept i u.cpu (effect u m).cpu) : Kept i s.cpu t.cpu := by
  unfold onRead at h
  split at h <;> cases h
  next m u hr => exact ((memRead_frame hr).bus.kept i).trans (he u m)

theorem onReadIndexed_kept {base : Addr} {index : Byte} {effect : State → Byte → State}
    (h : onRead (readIndexed base index s) effect = .next t) (he : ∀ u m, Kept i u.cpu (effect u m).cpu) :
    Kept i s.cpu t.cpu := by
  unfold readIndexed at h
  split at h
  · cases h
  · exact onRead_kept h he

theorem onWrite_kept {ea : Addr} {v : Byte} (h : onWrite (memWrite ea v s) = .next t) : Kept i s.cpu t.cpu := by
  unfold onWrite at h
  split at h <;> cases h
  next hw => exact (memWrite_frame hw).kept i

theorem onWriteIndexed_kept {base : Addr} {index v : Byte} (h : onWrite (writeIndexed base index v s) = .next t) :
    Kept i s.cpu t.cpu := by
  unfold writeIndexed at h
  split at h
  · cases h
  · exact onWrite_kept h

theorem onModify_kept {ea : Addr} {op : State → Byte → Byte × State} (h : onModify op ea s = .next t)
    (ho : ∀ u m, Kept i u.cpu (op u m).2.cpu) : Kept i s.cpu t.cpu := by
  unfold onModify at h
  split at h
  · cases h
  split at h
  · cases h
  next m u hr => exact (((memRead_frame hr).bus.kept i).trans (ho u m)).trans (onWrite_kept h)

/-- The accumulator form writes A besides what its operation writes. -/
theorem onAccumulator_kept {op : State → Byte → Byte × State} (h : onAccumulator op s = .next t)
    (hmode : modeOf i = .accumulator) (ho : Kept i s.cpu (op s s.cpu.a).2.cpu) : Kept i s.cpu t.cpu := by
  cases h
  exact { ho with a := fun _ hm => absurd hmode hm }

theorem onBranch_kept {condition : Bool} {disp : Int} (h : onBranch condition disp s = .next t)
    (hi : mnemonicOf i ∈ ["JMP", "JSR", "RTS", "RTI", "BRK", "BCC", "BCS", "BEQ", "BNE", "BMI", "BPL", "BVC", "BVS"]) :
    Kept i s.cpu t.cpu := by
  cases h
  cases condition
  · exact (BusFrame.refl s).kept i
  · exact { (BusFrame.refl s).kept i with pc := fun hm => absurd hi hm }

/-- The indirect jump reads its pointer twice and writes PC. -/
theorem jmpInd_kept {a : Addr} (h : exec (.jmpInd a) s = .next t) : Kept (.jmpInd a) s.cpu t.cpu := by
  change execJmpInd a s = .next t at h
  unfold execJmpInd readPointer at h
  split at h <;> cases h
  next hp =>
    split at hp
    · cases hp
    next hlow =>
      split at hp <;> cases hp
      next hhigh =>
        have hbus : Kept (.jmpInd a) s.cpu _ := ((memRead_frame hlow).trans (memRead_frame hhigh)).bus.kept _
        exact { hbus with pc := fun hm => absurd (by simp [mnemonicOf]) hm }

end shapes

/-- Each instruction that answers a next state keeps what it is no writer of (R10, R17). -/
theorem exec_kept (i : Instr) (s t : State) (h : exec i s = .next t) : Kept i s.cpu t.cpu :=
  match i, h with
  | .adcImm _, h => next_kept h (adc_kept s _ rfl)
  | .adcZp _, h | .adcZpX _, h | .adcAbs _, h | .adcIndX _, h => onRead_kept h (adc_kept · · rfl)
  | .adcAbsX _, h | .adcAbsY _, h | .adcIndY _, h => onReadIndexed_kept h (adc_kept · · rfl)
  | .sbcImm _, h => next_kept h (sbc_kept s _ rfl)
  | .sbcZp _, h | .sbcZpX _, h | .sbcAbs _, h | .sbcIndX _, h => onRead_kept h (sbc_kept · · rfl)
  | .sbcAbsX _, h | .sbcAbsY _, h | .sbcIndY _, h => onReadIndexed_kept h (sbc_kept · · rfl)
  | .andImm _, h => next_kept h (and_kept s _ rfl)
  | .andZp _, h | .andZpX _, h | .andAbs _, h | .andIndX _, h => onRead_kept h (and_kept · · rfl)
  | .andAbsX _, h | .andAbsY _, h | .andIndY _, h => onReadIndexed_kept h (and_kept · · rfl)
  | .oraImm _, h => next_kept h (ora_kept s _ rfl)
  | .oraZp _, h | .oraZpX _, h | .oraAbs _, h | .oraIndX _, h => onRead_kept h (ora_kept · · rfl)
  | .oraAbsX _, h | .oraAbsY _, h | .oraIndY _, h => onReadIndexed_kept h (ora_kept · · rfl)
  | .eorImm _, h => next_kept h (eor_kept s _ rfl)
  | .eorZp _, h | .eorZpX _, h | .eorAbs _, h | .eorIndX _, h => onRead_kept h (eor_kept · · rfl)
  | .eorAbsX _, h | .eorAbsY _, h | .eorIndY _, h => onReadIndexed_kept h (eor_kept · · rfl)
  | .cmpImm _, h => next_kept h (cmp_kept s _ rfl)
  | .cmpZp _, h | .cmpZpX _, h | .cmpAbs _, h | .cmpIndX _, h => onRead_kept h (cmp_kept · · rfl)
  | .cmpAbsX _, h | .cmpAbsY _, h | .cmpIndY _, h => onReadIndexed_kept h (cmp_kept · · rfl)
  | .cpxImm _, h => next_kept h (cpx_kept s _ rfl)
  | .cpxZp _, h | .cpxAbs _, h => onRead_kept h (cpx_kept · · rfl)
  | .cpyImm _, h => next_kept h (cpy_kept s _ rfl)
  | .cpyZp _, h | .cpyAbs _, h => onRead_kept h (cpy_kept · · rfl)
  | .bitZp _, h | .bitAbs _, h => onRead_kept h (bit_kept · · rfl)
  | .ldaImm _, h => next_kept h (lda_kept s _ rfl)
  | .ldaZp _, h | .ldaZpX _, h | .ldaAbs _, h | .ldaIndX _, h => onRead_kept h (lda_kept · · rfl)
  | .ldaAbsX _, h | .ldaAbsY _, h | .ldaIndY _, h => onReadIndexed_kept h (lda_kept · · rfl)
  | .ldxImm _, h => next_kept h (ldx_kept s _ rfl)
  | .ldxZp _, h | .ldxZpY _, h | .ldxAbs _, h => onRead_kept h (ldx_kept · · rfl)
  | .ldxAbsY _, h => onReadIndexed_kept h (ldx_kept · · rfl)
  | .ldyImm _, h => next_kept h (ldy_kept s _ rfl)
  | .ldyZp _, h | .ldyZpX _, h | .ldyAbs _, h => onRead_kept h (ldy_kept · · rfl)
  | .ldyAbsX _, h => onReadIndexed_kept h (ldy_kept · · rfl)
  | .aslZp _, h | .aslZpX _, h | .aslAbs _, h | .aslAbsX _, h => onModify_kept h (asl_kept · · rfl)
  | .lsrZp _, h | .lsrZpX _, h | .lsrAbs _, h | .lsrAbsX _, h => onModify_kept h (lsr_kept · · rfl)
  | .rolZp _, h | .rolZpX _, h | .rolAbs _, h | .rolAbsX _, h => onModify_kept h (rol_kept · · rfl)
  | .rorZp _, h | .rorZpX _, h | .rorAbs _, h | .rorAbsX _, h => onModify_kept h (ror_kept · · rfl)
  | .incZp _, h | .incZpX _, h | .incAbs _, h | .incAbsX _, h => onModify_kept h (inc_kept · · rfl)
  | .decZp _, h | .decZpX _, h | .decAbs _, h | .decAbsX _, h => onModify_kept h (dec_kept · · rfl)
  | .aslAcc, h => onAccumulator_kept h rfl (asl_kept s _ rfl)
  | .lsrAcc, h => onAccumulator_kept h rfl (lsr_kept s _ rfl)
  | .rolAcc, h => onAccumulator_kept h rfl (rol_kept s _ rfl)
  | .rorAcc, h => onAccumulator_kept h rfl (ror_kept s _ rfl)
  | .staZp _, h | .staZpX _, h | .staAbs _, h | .staIndX _, h | .stxZp _, h | .stxZpY _, h | .stxAbs _, h
  | .styZp _, h | .styZpX _, h | .styAbs _, h => onWrite_kept h
  | .staAbsX _, h | .staAbsY _, h | .staIndY _, h => onWriteIndexed_kept h
  | .bcc _, h | .bcs _, h | .beq _, h | .bne _, h | .bmi _, h | .bpl _, h | .bvc _, h | .bvs _, h =>
    onBranch_kept h (by simp [mnemonicOf])
  | .jmpInd _, h => jmpInd_kept h
  | .tax, h | .tay, h | .txa, h | .tya, h | .tsx, h | .txs, h | .nop, h =>
    next_kept h (by constructor <;> simp [mnemonicOf])
  | .inx, h | .dex, h | .iny, h | .dey, h =>
    next_kept h (by constructor <;> simp [mnemonicOf, State.inc, State.dec])
  | .clc, h | .sec, h | .cli, h | .sei, h | .cld, h | .sed, h | .clv, h =>
    next_kept h (by constructor <;> simp [mnemonicOf])
  | .pha, h | .php, h | .pla, h | .plp, h =>
    next_kept h (by constructor <;> simp [mnemonicOf, push_eq, State.pulled])
  | .jmpAbs _, h | .jsr _, h | .rts, h => next_kept h (by constructor <;> simp [mnemonicOf, push_eq, State.pulled])
  | .brk, h => next_kept h (by constructor <;> simp [mnemonicOf, State.takeBrk, enter_eq])
  | .rti, h => next_kept h (by constructor <;> simp [mnemonicOf, returnFromInterrupt_eq])

/-- Settles O30: the lists of R17 are those of `Kept`. -/
theorem flagWriters : Obligations.FlagWriters := by
  intro i s t h
  have kept := exec_kept i s t h
  exact ⟨kept.nz, kept.v, kept.d, kept.i, kept.c⟩

/-- Settles O31: the lists of R10 are those of `Kept`. -/
theorem registerWriters : Obligations.RegisterWriters := by
  intro i s t h
  have kept := exec_kept i s t h
  exact ⟨kept.a, kept.x, kept.y, kept.sp, kept.pc⟩

end Sys2Proof.Machine

/-! PROOF of O15. An instruction with a store address makes one bus write there, and before it at most a read of the same
address and a change of N, Z and C (40_addressing_modes.md R100); every other one changes no byte but those it pushes. -/

namespace Sys2Proof.Machine

/-- All a store or read-modify-write instruction does: one bus write, from a state that holds the same bytes as the one
before it, would store to the same cell, and differs in no register or flag but N, Z and C. -/
theorem exec_stores {i : Instr} {s t : State} {ea : Addr} (h : exec i s = .next t) (hs : storeAddress i s = some ea) :
    ∃ u v, memWrite ea v u = .ok t ∧ u.storedCell ea = s.storedCell ea ∧
      (∀ storage k, u.byteAt storage k = s.byteAt storage k) ∧
      u.cpu = { s.cpu with n := u.cpu.n, z := u.cpu.z, c := u.cpu.c } := by
  have noStore {P : Prop} (hn : storeAddress i s = none) : P := nomatch hs.symm.trans hn
  cases exec_shape i s t h with
  | cpu hn | read hn | pointer hn | push hn => exact noStore hn
  | store ea' v hs' hw =>
    obtain rfl : ea = ea' := Option.some.inj (hs.symm.trans hs')
    exact ⟨s, v, hw, rfl, fun _ _ => rfl, rfl⟩
  | modify ea' b v u n z c hs' hm hr hw =>
    obtain rfl : ea = ea' := Option.some.inj (hs.symm.trans hs')
    have hcell : u.storedCell ea = s.storedCell ea := storedCell_afterRead hr hm
    have hbytes : ∀ storage k, u.byteAt storage k = s.byteAt storage k := memRead_byteAt hr
    refine ⟨_, v, hw, hcell, hbytes, ?_⟩
    rw [(memRead_frame hr).cpu]

/-- A store changes no byte but that of the cell its address names (R42). -/
theorem exec_store_byteAt {i : Instr} {s t : State} {ea : Addr} (h : exec i s = .next t) (hs : storeAddress i s = some ea)
    (storage : Storage) (k : Nat) (hk : s.storedCell ea ≠ some (storage, k)) :
    t.byteAt storage k = s.byteAt storage k := by
  obtain ⟨u, v, hw, hcell, hbytes, -⟩ := exec_stores h hs
  rw [← hcell] at hk
  exact (memWrite_byteAt hw storage k hk).trans (hbytes storage k)

/-- A store leaves every register, and every flag but N, Z and C. -/
theorem exec_store_cpu {i : Instr} {s t : State} {ea : Addr} (h : exec i s = .next t) (hs : storeAddress i s = some ea) :
    (t.cpu.a, t.cpu.x, t.cpu.y, t.cpu.sp, t.cpu.pc) = (s.cpu.a, s.cpu.x, s.cpu.y, s.cpu.sp, s.cpu.pc) ∧
      (t.cpu.v, t.cpu.d, t.cpu.i) = (s.cpu.v, s.cpu.d, s.cpu.i) := by
  obtain ⟨u, v, hw, -, -, hcpu⟩ := exec_stores h hs
  have f := memWrite_frame hw
  rw [f.a, f.x, f.y, f.sp, f.pc, f.v, f.d, f.i, hcpu]
  exact ⟨rfl, rfl⟩

/-- A push writes internal RAM alone, so a byte that is none of those pushed stays (R12). -/
theorem byteAt_of_ram {s t : State} (ht : t = { s with cpu := t.cpu, ram := t.ram }) (storage : Storage) (k : Nat)
    (hram : storage = .ram → t.ram.read k = s.ram.read k) : t.byteAt storage k = s.byteAt storage k := by
  cases storage
  case ram => exact hram rfl
  all_goals rw [ht]; rfl

/-- An instruction without a store address changes no byte but the stack bytes it pushes (R12, R100). -/
theorem exec_noStore_byteAt {i : Instr} {s t : State} (h : exec i s = .next t) (hs : storeAddress i s = none)
    (storage : Storage) (k : Nat)
    (hk : storage = .ram → ∀ j, j < pushCount i → k ≠ 0x100 + (s.cpu.sp - BitVec.ofNat 8 j).toNat) :
    t.byteAt storage k = s.byteAt storage k := by
  have hasStore {P : Prop} {ea : Addr} (he : storeAddress i s = some ea) : P := nomatch hs.symm.trans he
  cases exec_shape i s t h with
  | store ea v he => exact hasStore he
  | modify ea b v u n z c he => exact hasStore he
  | cpu _ _ ht =>
    rw [ht]
    rfl
  | read _ _ a b u hr ht =>
    rw [ht]
    exact memRead_byteAt hr storage k
  | pointer _ _ a a' b b' u w hr hr' ht =>
    rw [ht]
    exact (memRead_byteAt hr' storage k).trans (memRead_byteAt hr storage k)
  | push _ ht hother => exact byteAt_of_ram ht storage k fun e => hother k (hk e)

/-- Settles O15: the cell a store writes, the registers it leaves, the bytes a push writes, and the image. -/
theorem memoryFrame : Obligations.MemoryFrame := by
  intro i s t h
  refine ⟨fun ea hs => ⟨exec_store_byteAt h hs, exec_store_cpu h hs⟩, exec_noStore_byteAt h, exec_rom h⟩

end Sys2Proof.Machine

/-! PROOF of O16. Plain memory on the CPU bus, region by region: RAM and its mirrors, WRAM under $A001, and ROM, where a
write reaches the MMC3 (20_memory.md R43, R46, R47). -/

namespace Sys2Proof.Machine

theorem afterWrite_eq {a : Addr} {v : Byte} {s t : State} (h : memWrite a v s = .ok t) : s.afterWrite a v = t := by
  unfold State.afterWrite
  rw [h]

section regions
variable (s : State) {a : Addr} (v : Byte)

theorem afterWrite_ram (h : a.toNat < 0x2000) : s.afterWrite a v = s.setRam (s.ram.write (ramIndex a) v) :=
  afterWrite_eq (memWrite_ram s v h)

/-- WRAM takes a write where bit 7 of $A001 enables it and bit 6 does not protect it (R346). -/
theorem memWrite_wram_open (h : 0x6000 ≤ a.toNat) (h' : a.toNat < 0x8000)
    (hopen : s.mmc3.prgRamProtect.getLsbD 7 = true ∧ s.mmc3.prgRamProtect.getLsbD 6 = false) :
    memWrite a v s = .ok (s.setWram (s.wram.write (a.toNat - 0x6000) v)) := by
  rw [memWrite_wram s v h h', Mmc3.wramWritable, hopen.1, hopen.2]
  rfl

/-- Where WRAM is disabled or protected a write to it is dropped (R346). -/
theorem memWrite_wram_closed (h : 0x6000 ≤ a.toNat) (h' : a.toNat < 0x8000)
    (hclosed : s.mmc3.prgRamProtect.getLsbD 7 = false ∨ s.mmc3.prgRamProtect.getLsbD 6 = true) :
    memWrite a v s = .ok s := by
  have hw : s.mmc3.wramWritable = false := by
    unfold Mmc3.wramWritable
    rcases hclosed with hd | hp
    · rw [hd, Bool.false_and]
    · rw [hp, Bool.not_true, Bool.and_false]
  rw [memWrite_wram s v h h', hw]
  rfl

theorem memRead_wram_enabled (h : 0x6000 ≤ a.toNat) (h' : a.toNat < 0x8000)
    (he : s.mmc3.prgRamProtect.getLsbD 7 = true) : memRead a s = .ok (s.wram.read (a.toNat - 0x6000), s) := by
  rw [memRead_wram s h h', Mmc3.wramEnabled, he]
  rfl

theorem memRead_wram_disabled (h : 0x6000 ≤ a.toNat) (h' : a.toNat < 0x8000)
    (hd : s.mmc3.prgRamProtect.getLsbD 7 = false) : memRead a s = .ok s.openBus := by
  rw [memRead_wram s h h', Mmc3.wramEnabled, hd]
  rfl

/-- After a RAM write every address of the same residue modulo $0800 reads the byte, every other RAM address as before
(R43). -/
theorem memRead_afterWrite_ram (h : a.toNat < 0x2000) {b : Addr} (hb : b.toNat < 0x2000) :
    memRead b (s.afterWrite a v) =
      .ok (if b.toNat % 0x800 = a.toNat % 0x800 then v else s.plainByte b, s.afterWrite a v) := by
  have hread : (s.afterWrite a v).ram.read (ramIndex b) =
      if ramIndex b = ramIndex a then v else s.ram.read (ramIndex b) := by
    rw [afterWrite_ram s v h, State.setRam_ram, Memory.read_write]
  have hplain : s.plainByte b = s.ram.read (ramIndex b) := if_pos hb
  rw [memRead_ram _ hb, hread, hplain]
  rfl

end regions

/-- Settles O16: one part for each region of plain memory. -/
theorem plainMemoryBus : Obligations.PlainMemoryBus := by
  intro s a v
  refine ⟨memRead_plain, fun hram => ⟨?ramWrite, fun b => memRead_afterWrite_ram s v hram⟩, fun hlow hhigh =>
    ⟨memRead_wram_enabled s hlow hhigh, fun hd => ⟨_, memRead_wram_disabled s hlow hhigh hd⟩, fun hopen => ?wramWrite,
      memWrite_wram_closed s v hlow hhigh⟩, fun hrom => ?romWrite⟩
  case ramWrite =>
    rw [afterWrite_ram s v hram]
    exact memWrite_ram s v hram
  case wramWrite =>
    have hw := memWrite_wram_open s v hlow hhigh hopen
    rw [afterWrite_eq hw]
    exact ⟨hw, fun k => Memory.read_write _ _ _ _⟩
  case romWrite =>
    have hw := memWrite_rom s v hrom
    rw [afterWrite_eq hw]
    exact hw

end Sys2Proof.Machine

/-! PROOF of O6. An error of the fetch is the refusal of a step that is an instruction; PC in $2000-$5FFF and an undefined
opcode byte are such errors, and the boundary's input changes neither (20_memory.md R53, 30_encoding.md R90). -/

namespace Sys2Proof.Machine

theorem fetch_fromDevice {s : State} (h : 0x2000 ≤ s.cpu.pc.toNat) (h' : s.cpu.pc.toNat ≤ 0x5FFF) :
    fetch s = .error (.fetchFromDevice s.cpu.pc) := by
  have hr : fetchRefused s.cpu.pc = true := by
    unfold fetchRefused
    rw [decide_eq_true h, decide_eq_true h']
    rfl
  unfold fetch
  rw [if_pos hr]

theorem fetch_undefinedOpcode {s : State} (h : s.plain s.cpu.pc = true)
    (hop : opcodeLength (s.plainByte s.cpu.pc) = none) :
    fetch s = .error (.undefinedOpcode (s.plainByte s.cpu.pc)) := by
  simp only [fetch, fetchRefused_plain h, Bool.false_eq_true, if_false, memRead_plain h, hop]

/-- Where the move is an instruction's, an error of the fetch refuses the step (R84). -/
theorem step_of_fetch_error {s : State} {e : Refusal} (hmove : s.takeInput.nextMove s.nextInput = .instruction)
    (hf : fetch s.takeInput = .error e) : step s = .refused e := by
  simp only [step, State.move, hmove, State.instructionStep, hf]

/-- Settles O6: the two errors of the fetch, at the PC and over the memory that taking the input in leaves. -/
theorem fetchRefusals : Obligations.FetchRefusals := by
  intro s hmove
  exact ⟨fun h h' => step_of_fetch_error hmove (fetch_fromDevice (s := s.takeInput) h h'),
    fun h hop => step_of_fetch_error hmove (fetch_undefinedOpcode (s := s.takeInput) h hop)⟩

end Sys2Proof.Machine

/-! PROOF of O17. The addresses nothing drives read as open bus, which draws a free value and does no more, and the writes
nothing takes are dropped (20_memory.md R44, R45, R57). -/

namespace Sys2Proof.Machine

/-- The write-only PPU registers read as open bus: all but $2002, $2004 and $2007 (R57). -/
theorem readPpuReg_openBus (s : State) {reg : Nat} (h2 : reg ≠ 2) (h4 : reg ≠ 4) (h7 : reg ≠ 7) :
    s.readPpuReg reg = .ok s.openBus := by
  unfold State.readPpuReg
  split
  · exact absurd rfl h2
  · exact absurd rfl h4
  · exact absurd rfl h7
  · rfl

/-- Below $4020 only $4015 and the two ports answer a read (R57, R323). -/
theorem readIo_openBus (s : State) {address : Nat} (h15 : address ≠ 0x4015) (h16 : address ≠ 0x4016)
    (h17 : address ≠ 0x4017) : s.readIo address = s.openBus := by
  unfold State.readIo
  rw [if_neg h15, if_neg h16, if_neg h17]

/-- Above the ports no register takes a write (R42). -/
theorem writeIo_unmapped (s : State) {address : Nat} (d : Byte) (h : 0x4018 ≤ address) :
    s.writeIo address d = .ok s := by
  unfold State.writeIo
  rw [if_neg (by omega), if_neg (by omega), if_neg (by omega), if_neg (by omega), if_neg (by omega)]

/-- $4018-$5FFF reads as open bus, below $4020 and above (R45). -/
theorem memRead_undriven (s : State) {a : Addr} (h : 0x4018 ≤ a.toNat) (h' : a.toNat < 0x6000) :
    memRead a s = .ok s.openBus := by
  obtain hio | hun := Nat.lt_or_ge a.toNat 0x4020
  · rw [memRead_io s (by omega) hio, readIo_openBus s (by omega) (by omega) (by omega)]
  · exact memRead_unmapped s hun h'

/-- A write to $4018-$5FFF is dropped (R45). -/
theorem memWrite_undriven (s : State) {a : Addr} (v : Byte) (h : 0x4018 ≤ a.toNat) (h' : a.toNat < 0x6000) :
    memWrite a v s = .ok s := by
  obtain hio | hun := Nat.lt_or_ge a.toNat 0x4020
  · rw [memWrite_io s v (by omega) hio, writeIo_unmapped s v h]
  · exact memWrite_unmapped s v hun h'

/-- Settles O17: the write-only registers, the APU's channels and the undriven range, then $4015, then dropped writes. -/
theorem deviceReads : Obligations.DeviceReads := by
  intro s a v
  refine ⟨?openBus, ⟨_, memRead_io s (a := 0x4015) (by decide) (by decide)⟩, ?dropped⟩
  case openBus =>
    intro h
    suffices hr : memRead a s = .ok s.openBus from ⟨_, hr⟩
    obtain ⟨hlow, hhigh, hreg⟩ | ⟨hlow, hhigh⟩ | ⟨hlow, hhigh⟩ := h
    · rw [memRead_ppu s hlow hhigh, readPpuReg_openBus s (by omega) (by omega) (by omega)]
    · rw [memRead_io s hlow (by omega), readIo_openBus s (by omega) (by omega) (by omega)]
    · exact memRead_undriven s hlow hhigh
  case dropped =>
    rintro (⟨hlow, hhigh, hreg⟩ | ⟨hlow, hhigh⟩)
    · rw [memWrite_ppu s v hlow hhigh, hreg]
      rfl
    · exact memWrite_undriven s v hlow hhigh

end Sys2Proof.Machine

/-! PROOF of O1 to O4. Decoding as a relation: a form makes an instruction of exactly its operand bytes, the decoder
answers an instruction where the form of the first byte makes it of the bytes that follow, and the encoder writes such bytes
(30_encoding.md R81, R82, R86, R87). -/

namespace Sys2Proof

/-- The form makes this instruction of these operand bytes (R81). -/
inductive Form.Makes : Form → List Byte → Instr → Prop
  | f1 (i : Instr) : Form.Makes (.f1 i) [] i
  | f2 (mk : Byte → Instr) (b : Byte) : Form.Makes (.f2 mk) [b] (mk b)
  | rel (mk : Int → Instr) (b : Byte) : Form.Makes (.rel mk) [b] (mk b.toInt)
  | f3 (mk : Addr → Instr) (b1 b2 : Byte) : Form.Makes (.f3 mk) [b1, b2] (mk (wordOf b1 b2))

/-- The mnemonic and the mode of what a form makes of two bytes, those it does not use left aside; none of an undefined
opcode. -/
def Form.label (b1 b2 : Byte) : Form → Option (String × Mode)
  | .undef => none
  | .f1 i => some (mnemonicOf i, modeOf i)
  | .f2 mk => some (mnemonicOf (mk b1), modeOf (mk b1))
  | .rel mk => some (mnemonicOf (mk b1.toInt), modeOf (mk b1.toInt))
  | .f3 mk => some (mnemonicOf (mk (wordOf b1 b2)), modeOf (mk (wordOf b1 b2)))

/-- What the decoder can answer of these bytes (R82). -/
inductive DecodeResult.Answers : List Byte → DecodeResult → Prop
  | empty : Answers [] .truncated
  | undefined {op : Byte} (tail : List Byte) (hform : formOf op = .undef) : Answers (op :: tail) (.undefinedOpcode op)
  | missing {op : Byte} {tail : List Byte} {len : Nat} (hlen : opcodeLength op = some len)
      (hshort : (op :: tail).length < len) : Answers (op :: tail) .truncated
  | instruction {op : Byte} {operands : List Byte} {i : Instr} (rest : List Byte)
      (hmakes : (formOf op).Makes operands i) : Answers (op :: (operands ++ rest)) (.ok i rest)

/-- The decoder answers by the form of the first byte and by how many bytes follow it. -/
theorem decode_answers (bytes : List Byte) : DecodeResult.Answers bytes (decode bytes) := by
  cases bytes with
  | nil => exact .empty
  | cons op tail =>
    simp only [decode]
    split
    next hf => exact .undefined tail hf
    next i hf => exact .instruction tail (operands := []) (hf.symm ▸ Form.Makes.f1 i)
    next mk hf =>
      cases tail with
      | nil => exact .missing (by rw [opcodeLength, hf]) (by simp)
      | cons b tail => exact .instruction tail (operands := [b]) (hf.symm ▸ Form.Makes.f2 mk b)
    next mk hf =>
      cases tail with
      | nil => exact .missing (by rw [opcodeLength, hf]) (by simp)
      | cons b tail => exact .instruction tail (operands := [b]) (hf.symm ▸ Form.Makes.rel mk b)
    next mk hf =>
      rcases tail with - | ⟨b1, - | ⟨b2, tail⟩⟩
      · exact .missing (by rw [opcodeLength, hf]) (by simp)
      · exact .missing (by rw [opcodeLength, hf]) (by simp)
      · exact .instruction tail (operands := [b1, b2]) (hf.symm ▸ Form.Makes.f3 mk b1 b2)

theorem decode_of_makes {op : Byte} {operands : List Byte} {i : Instr} (h : (formOf op).Makes operands i)
    (rest : List Byte) : decode (op :: (operands ++ rest)) = .ok i rest := by
  simp only [decode]
  generalize formOf op = f at h
  cases h <;> rfl

theorem makes_of_decode {bytes rest : List Byte} {i : Instr} (h : decode bytes = .ok i rest) :
    ∃ op operands, bytes = op :: (operands ++ rest) ∧ (formOf op).Makes operands i := by
  have ha := decode_answers bytes
  rw [h] at ha
  cases ha with
  | instruction rest hmakes => exact ⟨_, _, rfl, hmakes⟩

theorem opcodeLength_eq_none_iff {op : Byte} : opcodeLength op = none ↔ formOf op = .undef := by
  unfold opcodeLength
  cases formOf op <;> simp

theorem decode_eq_undefinedOpcode_iff {bytes : List Byte} {op : Byte} :
    decode bytes = .undefinedOpcode op ↔ bytes.head? = some op ∧ opcodeLength op = none := by
  rw [opcodeLength_eq_none_iff]
  constructor
  · intro h
    have ha := decode_answers bytes
    rw [h] at ha
    cases ha with
    | undefined tail hform => exact ⟨rfl, hform⟩
  · rintro ⟨hhead, hform⟩
    obtain ⟨tail, rfl⟩ := List.head?_eq_some_iff.mp hhead
    simp only [decode, hform]

/-- The undefined opcodes are the members of any list that the matrix, searched in order, gives (R90). -/
theorem opcodeLength_eq_none_iff_mem {undefinedBytes : List Byte}
    (hlist : ((List.range 256).map (BitVec.ofNat 8)).filter (fun op => opcodeLength op = none) = undefinedBytes)
    (op : Byte) : opcodeLength op = none ↔ op ∈ undefinedBytes := by
  have hop : op ∈ (List.range 256).map (BitVec.ofNat 8) :=
    List.mem_map.mpr ⟨op.toNat, List.mem_range.mpr op.isLt, by simp⟩
  rw [← hlist, List.mem_filter, decide_eq_true_iff, and_iff_right hop]

/-- Bytes are missing only where there are none, or fewer than a defined opcode's length (R82). -/
theorem length_lt_of_decode_truncated {bytes : List Byte} (h : decode bytes = .truncated) :
    bytes = [] ∨ ∃ op len, bytes.head? = some op ∧ opcodeLength op = some len ∧ bytes.length < len := by
  have ha := decode_answers bytes
  rw [h] at ha
  cases ha with
  | empty => exact .inl rfl
  | missing hlen hshort => exact .inr ⟨_, _, rfl, hlen, hshort⟩

/-! What a form makes is what the encoder writes, and the other way round. -/

/-- Where a form agrees with the encoder, what it makes is well-formed and encodes as the opcode and the operand bytes. -/
theorem Form.Agrees.encode_of_makes {op : Byte} {f : Form} (h : f.Agrees op) {operands : List Byte} {i : Instr}
    (hm : f.Makes operands i) : i.wf = true ∧ encode i = op :: operands ∧ lengthOf i = operands.length + 1 := by
  cases hm with
  | f1 i => exact h
  | f2 mk b => exact h b
  | rel mk b =>
    obtain ⟨hwf, henc, hlen⟩ := h b.toInt
    rw [dispInRange_toInt] at hwf
    rw [dispByte_of_toInt] at henc
    exact ⟨hwf, henc, hlen⟩
  | f3 mk b1 b2 =>
    obtain ⟨hwf, henc, hlen⟩ := h (wordOf b1 b2)
    rw [lo_wordOf, hi_wordOf] at henc
    exact ⟨hwf, henc, hlen⟩

/-- A displacement in range is the one its byte holds (R87). -/
theorem Form.Makes.rel_dispByte (mk : Int → Instr) {disp : Int} (h : dispInRange disp = true) :
    (Form.rel mk).Makes [dispByte disp] (mk disp) := by
  have hm := Form.Makes.rel mk (dispByte disp)
  rwa [dispByte_toInt h] at hm

/-- An address is the word of its two bytes, low byte first (R86). -/
theorem Form.Makes.f3_lo_hi (mk : Addr → Instr) (a : Addr) : (Form.f3 mk).Makes [lo a, hi a] (mk a) := by
  have hm := Form.Makes.f3 mk (lo a) (hi a)
  rwa [wordOf_lo_hi] at hm

/-- The opcode an instruction is encoded with has the form that makes it, of the operand bytes behind it: format by format
of R81. -/
theorem encode_makes (i : Instr) (h : i.wf = true) :
    ∃ op operands, encode i = op :: operands ∧ (formOf op).Makes operands i := by
  cases i with
  | brk | php | clc | plp | sec | rti | pha | cli | rts | pla | sei | dey | txa | tya | txs | tay | tax | clv
  | tsx | iny | dex | cld | inx | nop | sed | aslAcc | rolAcc | lsrAcc | rorAcc =>
    exact ⟨_, _, rfl, .f1 _⟩
  | oraImm b | andImm b | eorImm b | adcImm b | ldyImm b | ldxImm b | ldaImm b | cpyImm b | cmpImm b | cpxImm b
  | sbcImm b | oraZp b | aslZp b | bitZp b | andZp b | rolZp b | eorZp b | lsrZp b | adcZp b | rorZp b | styZp b
  | staZp b | stxZp b | ldyZp b | ldaZp b | ldxZp b | cpyZp b | cmpZp b | decZp b | cpxZp b | sbcZp b | incZp b
  | oraZpX b | aslZpX b | andZpX b | rolZpX b | eorZpX b | lsrZpX b | adcZpX b | rorZpX b | styZpX b | staZpX b
  | ldyZpX b | ldaZpX b | cmpZpX b | decZpX b | sbcZpX b | incZpX b | stxZpY b | ldxZpY b | oraIndX b
  | andIndX b | eorIndX b | adcIndX b | staIndX b | ldaIndX b | cmpIndX b | sbcIndX b | oraIndY b | andIndY b
  | eorIndY b | adcIndY b | staIndY b | ldaIndY b | cmpIndY b | sbcIndY b =>
    exact ⟨_, _, rfl, .f2 _ b⟩
  | bpl disp | bmi disp | bvc disp | bvs disp | bcc disp | bcs disp | bne disp | beq disp =>
    exact ⟨_, _, rfl, .rel_dispByte _ h⟩
  | oraAbs a | aslAbs a | jsr a | bitAbs a | andAbs a | rolAbs a | jmpAbs a | eorAbs a | lsrAbs a | adcAbs a
  | rorAbs a | styAbs a | staAbs a | stxAbs a | ldyAbs a | ldaAbs a | ldxAbs a | cpyAbs a | cmpAbs a | decAbs a
  | cpxAbs a | sbcAbs a | incAbs a | oraAbsX a | aslAbsX a | andAbsX a | rolAbsX a | eorAbsX a | lsrAbsX a
  | adcAbsX a | rorAbsX a | staAbsX a | ldyAbsX a | ldaAbsX a | cmpAbsX a | decAbsX a | sbcAbsX a | incAbsX a
  | oraAbsY a | andAbsY a | eorAbsY a | adcAbsY a | staAbsY a | ldaAbsY a | ldxAbsY a | cmpAbsY a | sbcAbsY a
  | jmpInd a =>
    exact ⟨_, _, rfl, .f3_lo_hi _ a⟩

/-- The opcode byte fixes mnemonic and mode: no operand byte changes them (R82). -/
theorem formOf_label (op b1 b2 : Byte) : (formOf op).label b1 b2 = (formOf op).label 0 0 := by
  refine byte_cases (P := fun op => (formOf op).label b1 b2 = (formOf op).label 0 0) (fun high low => ?_) op
  fin_cases high <;> fin_cases low <;> rfl

theorem Form.Makes.label {f : Form} {operands : List Byte} {i : Instr} (h : f.Makes operands i) :
    ∃ b1 b2, f.label b1 b2 = some (mnemonicOf i, modeOf i) := by
  cases h with
  | f1 i => exact ⟨0, 0, rfl⟩
  | f2 mk b => exact ⟨b, 0, rfl⟩
  | rel mk b => exact ⟨b, 0, rfl⟩
  | f3 mk b1 b2 => exact ⟨b1, b2, rfl⟩

/-- Two instructions made by one opcode's form have the same mnemonic and mode (R82). -/
theorem Form.Makes.same_label {op : Byte} {operands operands' : List Byte} {i j : Instr}
    (hi : (formOf op).Makes operands i) (hj : (formOf op).Makes operands' j) :
    mnemonicOf i = mnemonicOf j ∧ modeOf i = modeOf j := by
  obtain ⟨b1, b2, hbi⟩ := hi.label
  obtain ⟨c1, c2, hcj⟩ := hj.label
  have heq : some (mnemonicOf i, modeOf i) = some (mnemonicOf j, modeOf j) := by
    rw [← hbi, ← hcj, formOf_label op b1 b2, formOf_label op c1 c2]
  simpa using heq

/-- Settles O1: the encoder writes an opcode and the operand bytes of which that opcode's form makes the instruction. -/
theorem decodeOfEncode : Obligations.DecodeOfEncode := by
  intro i rest hwf
  obtain ⟨op, operands, henc, hmakes⟩ := encode_makes i hwf
  rw [henc]
  exact decode_of_makes hmakes rest

/-- Settles O2: one part for each answer of the decoder. -/
theorem encodeOfDecode : Obligations.EncodeOfDecode := by
  intro bytes
  refine ⟨fun i rest h => ?_, fun op => decode_eq_undefinedOpcode_iff.mp, length_lt_of_decode_truncated⟩
  obtain ⟨op, operands, rfl, hmakes⟩ := makes_of_decode h
  obtain ⟨hwf, henc, -⟩ := (formOf_agrees op).encode_of_makes hmakes
  exact ⟨hwf, congrArg (· ++ rest) henc⟩

/-- Settles O3: the undefined cells of the matrix are the listed ones, and a form gives all it makes one mnemonic, mode and
length. -/
theorem opcodeAloneDecides : Obligations.OpcodeAloneDecides := by
  refine ⟨fun op rest => ?undefined, fun op bytes bytes' rest rest' i j hi hj => ?defined⟩
  case undefined =>
    rw [decode_eq_undefinedOpcode_iff, List.head?_cons, and_iff_right rfl]
    exact opcodeLength_eq_none_iff_mem (by decide) op
  case defined =>
    obtain ⟨_, operands, hbytes, hmakesi⟩ := makes_of_decode hi
    obtain ⟨_, operands', hbytes', hmakesj⟩ := makes_of_decode hj
    cases hbytes
    cases hbytes'
    obtain ⟨-, -, hlen⟩ := (formOf_agrees op).encode_of_makes hmakesi
    obtain ⟨hname, hmode⟩ := hmakesi.same_label hmakesj
    refine ⟨hname, hmode, ?_⟩
    rw [hlen, List.length_cons, List.length_append]
    omega

/-- Settles O4: closed words, which the decoder evaluates. -/
theorem specWordsDecode : Obligations.SpecWordsDecode := by
  unfold Obligations.SpecWordsDecode
  decide

end Sys2Proof

/-! PROOF of O5. Where nothing else has the boundary the move is an instruction's; its fetch from plain memory reads the
decoded instruction and moves PC past it; then time passes (30_encoding.md R84, 60_exceptions.md R221, R417). -/

namespace Sys2Proof.Machine

/-- An instruction has the boundary where the host does nothing, no DMA runs, and each interrupt is absent, masked or
deferred (R221). -/
theorem nextMove_instruction {s : State} {inp : HostInput} (haction : inp.action = .none) (hdma : s.dma.active = false)
    (hnmi : s.cpu.nmiPending = false ∨ s.defers inp = true)
    (hirq : s.cpu.i = true ∨ s.irqLine = false ∨ s.defers inp = true) : s.nextMove inp = .instruction := by
  have hn : (s.cpu.nmiPending && !s.defers inp) = false := by
    rcases hnmi with h | h <;> simp [h]
  have hi : (!s.cpu.i && s.irqLine && !s.defers inp) = false := by
    rcases hirq with h | h | h <;> simp [h]
  simp only [State.nextMove, haction, hdma, hn, hi, Bool.false_eq_true, if_false]

theorem defers_eq_true_iff {s : State} {inp : HostInput} :
    s.defers inp = true ↔ s.timed = false ∧ inp.deferInterrupts = true := by
  simp [State.defers]

/-- Where the move is an instruction's, the step is what the fetched instruction does, and its time (R84). -/
theorem step_of_fetch {s t : State} {i : Instr} (hmove : s.takeInput.nextMove s.nextInput = .instruction)
    (hf : fetch s.takeInput = .ok (i, t)) : step s = afterExec s.nextInput (cyclesOf i t) (exec i t) := by
  simp only [step, State.move, hmove, State.instructionStep, hf]

/-- Settles O5: the move is the instruction's, and the fetch is that of plain memory after the input is taken in. -/
theorem stepRunsDecodedInstruction : Obligations.StepRunsDecodedInstruction := by
  intro s i rest haction hdma hnmi hirq hdecode hplain t
  rw [← defers_eq_true_iff] at hnmi hirq
  have hmove : s.takeInput.nextMove s.nextInput = .instruction :=
    nextMove_instruction (s := s.takeInput) haction hdma hnmi hirq
  have hfetch : fetch s.takeInput = .ok (i, t) := fetch_plain (s := s.takeInput) hdecode hplain
  rw [step_of_fetch hmove hfetch]
  cases exec i t <;> rfl

end Sys2Proof.Machine

/-! PROOF of O13 and O14. What an operand read in each addressing mode answers, whatever the instruction does with the byte
(40_addressing_modes.md R104 to R112); a load is such a read with the register's effect, a store is one write at the mode's
address (41_load_store.md R120 to R125). -/

namespace Sys2Proof.Machine

/-- The one cycle more of a page crossing (R413). -/
theorem pageCrossCycle_eq (base : Addr) (index : Byte) :
    pageCrossCycle base index = if 256 ≤ (lo base).toNat + index.toNat then 1 else 0 := by
  simp only [pageCrossCycle, indexCarries, decide_eq_true_eq]

/-- The cycles of an indexed read: its base count, and one more where the index addition crosses a page (R413). -/
theorem costs_pageCross {i : Instr} {s : State} {bytes : List Byte} {cycles : Nat} {base : Addr} {index : Byte}
    (hbytes : encode i = bytes) (hcycles : cyclesOf i s = cycles + pageCrossCycle base index) :
    Costs i s bytes (cycles + if 256 ≤ (lo base).toNat + index.toNat then 1 else 0) := by
  rw [pageCrossCycle_eq] at hcycles
  exact ⟨hbytes, hcycles⟩

/-! ### The operand read of each addressing mode. -/

section modes
variable (s : State) (effect : State → Byte → State)

theorem onRead_readZp (p : Byte) : ReadsAt (onRead (readZp p s) effect) (p.setWidth 16) s effect :=
  onRead_readsAt (eaZp p) s effect

theorem onRead_readZpX (p : Byte) : ReadsAt (onRead (readZpX p s) effect) ((p + s.cpu.x).setWidth 16) s effect :=
  onRead_readsAt (eaZpIndexed p s.cpu.x) s effect

theorem onRead_readZpY (p : Byte) : ReadsAt (onRead (readZpY p s) effect) ((p + s.cpu.y).setWidth 16) s effect :=
  onRead_readsAt (eaZpIndexed p s.cpu.y) s effect

theorem onRead_readAbs (a : Addr) : ReadsAt (onRead (readAbs a s) effect) a s effect :=
  onRead_readsAt a s effect

theorem onRead_readAbsX (a : Addr) : ReadsIndexed (onRead (readAbsX a s) effect) a s.cpu.x s effect :=
  onRead_readsIndexed a s.cpu.x s effect

theorem onRead_readAbsY (a : Addr) : ReadsIndexed (onRead (readAbsY a s) effect) a s.cpu.y s effect :=
  onRead_readsIndexed a s.cpu.y s effect

theorem onRead_readIndX (p : Byte) :
    ReadsAt (onRead (readIndX p s) effect)
      (wordOf (s.ram.read (p + s.cpu.x).toNat) (s.ram.read (p + s.cpu.x + 1).toNat)) s effect :=
  onRead_readsAt (s.eaIndX p) s effect

theorem onRead_readIndY (p : Byte) :
    ReadsIndexed (onRead (readIndY p s) effect) (wordOf (s.ram.read p.toNat) (s.ram.read (p + 1).toNat)) s.cpu.y s
      effect :=
  onRead_readsIndexed (s.baseIndY p) s.cpu.y s effect

end modes

/-! ### The effect of each load as one record update. -/

theorem lda_eq : State.lda = fun t m =>
    { t with cpu := { t.cpu with a := m, n := m.getLsbD 7, z := decide (m = 0) } } := rfl

theorem ldx_eq : State.ldx = fun t m =>
    { t with cpu := { t.cpu with x := m, n := m.getLsbD 7, z := decide (m = 0) } } := rfl

theorem ldy_eq : State.ldy = fun t m =>
    { t with cpu := { t.cpu with y := m, n := m.getLsbD 7, z := decide (m = 0) } } := rfl

/-- Settles O13: each form is the operand read of its mode with the effect of its mnemonic. -/
theorem loadInstructions : Obligations.LoadInstructions := by
  unfold Obligations.LoadInstructions
  rw [← lda_eq, ← ldx_eq, ← ldy_eq]
  intro s
  refine ⟨?ldaImm, ?ldaZp, ?ldaZpX, ?ldaAbs, ?ldaAbsX, ?ldaAbsY, ?ldaIndX, ?ldaIndY,
    ?ldxImm, ?ldxZp, ?ldxZpY, ?ldxAbs, ?ldxAbsY, ?ldyImm, ?ldyZp, ?ldyZpX, ?ldyAbs, ?ldyAbsX⟩
  case ldaImm | ldxImm | ldyImm => exact fun m => ⟨⟨rfl, rfl⟩, rfl⟩
  case ldaZp | ldxZp | ldyZp => exact fun p => ⟨⟨rfl, rfl⟩, onRead_readZp s _ p⟩
  case ldaZpX | ldyZpX => exact fun p => ⟨⟨rfl, rfl⟩, onRead_readZpX s _ p⟩
  case ldxZpY => exact fun p => ⟨⟨rfl, rfl⟩, onRead_readZpY s _ p⟩
  case ldaAbs | ldxAbs | ldyAbs => exact fun a => ⟨⟨rfl, rfl⟩, onRead_readAbs s _ a⟩
  case ldaAbsX | ldyAbsX => exact fun a => ⟨costs_pageCross rfl rfl, onRead_readAbsX s _ a⟩
  case ldaAbsY | ldxAbsY => exact fun a => ⟨costs_pageCross rfl rfl, onRead_readAbsY s _ a⟩
  case ldaIndX => exact fun p => ⟨⟨rfl, rfl⟩, onRead_readIndX s _ p⟩
  case ldaIndY => exact fun p => ⟨costs_pageCross rfl rfl, onRead_readIndY s _ p⟩

/-- Settles O14: each form is one write, at the address of its mode; the indexed ones always take the longer count. -/
theorem storeInstructions : Obligations.StoreInstructions := by
  intro s
  refine ⟨?staZp, ?staZpX, ?staAbs, ?staAbsX, ?staAbsY, ?staIndX, ?staIndY,
    ?stxZp, ?stxZpY, ?stxAbs, ?styZp, ?styZpX, ?styAbs⟩
  case staZp | stxZp | styZp => exact fun p => ⟨⟨rfl, rfl⟩, onWrite_writesAt (eaZp p) _ s⟩
  case staZpX | styZpX => exact fun p => ⟨⟨rfl, rfl⟩, onWrite_writesAt (eaZpIndexed p s.cpu.x) _ s⟩
  case stxZpY => exact fun p => ⟨⟨rfl, rfl⟩, onWrite_writesAt (eaZpIndexed p s.cpu.y) _ s⟩
  case staAbs | stxAbs | styAbs => exact fun a => ⟨⟨rfl, rfl⟩, onWrite_writesAt a _ s⟩
  case staAbsX => exact fun a => ⟨⟨rfl, rfl⟩, onWrite_writesIndexed a s.cpu.x _ s⟩
  case staAbsY => exact fun a => ⟨⟨rfl, rfl⟩, onWrite_writesIndexed a s.cpu.y _ s⟩
  case staIndX => exact fun p => ⟨⟨rfl, rfl⟩, onWrite_writesAt (s.eaIndX p) _ s⟩
  case staIndY => exact fun p => ⟨⟨rfl, rfl⟩, onWrite_writesIndexed (s.baseIndY p) s.cpu.y _ s⟩

end Sys2Proof.Machine

/-! PROOF of O18 and O19. A transfer sets its destination register as a load of the source register's byte does, and TXS
sets S alone; the stack instructions push and pull by the stack operations (42_transfer_stack.md R130 to R139). -/

namespace Sys2Proof.Machine

/-! ### Which instructions load a byte already in the CPU or on the stack (R130 to R134, R137). -/

theorem exec_tax (s : State) : exec .tax s = .next (s.ldx s.cpu.a) := rfl
theorem exec_tay (s : State) : exec .tay s = .next (s.ldy s.cpu.a) := rfl
theorem exec_txa (s : State) : exec .txa s = .next (s.lda s.cpu.x) := rfl
theorem exec_tya (s : State) : exec .tya s = .next (s.lda s.cpu.y) := rfl
theorem exec_tsx (s : State) : exec .tsx s = .next (s.ldx s.cpu.sp) := rfl
theorem exec_pla_lda (s : State) : exec .pla s = .next (s.pulled.lda s.pullByte) := exec_pla s

/-- TXS is no load: S takes the byte and no flag does (R135). -/
theorem exec_txs (s : State) : exec .txs s = .next (s.setSp s.cpu.x) := rfl

/-- Settles O18: five transfers are loads of a register's byte, and TXS sets S alone. -/
theorem transferInstructions : Obligations.TransferInstructions := by
  intro s
  rw [exec_tax, exec_tay, exec_txa, exec_tya, exec_tsx, exec_txs, lda_eq, ldx_eq, ldy_eq]
  refine ⟨?tax, ?tay, ?txa, ?tya, ?tsx, ?txs⟩
  case tax | tay | txa | tya | tsx | txs => exact ⟨⟨rfl, rfl⟩, rfl⟩

/-- Settles O19: PHA and PHP push, and the byte of PHP is that of R14; PLA loads the pulled byte, PLP sets the flags from it. -/
theorem stackInstructions : Obligations.StackInstructions := by
  intro s top
  refine ⟨⟨⟨rfl, rfl⟩, ?pha⟩, ⟨⟨rfl, rfl⟩, ?pla⟩, ⟨⟨rfl, rfl⟩, ?php⟩, ⟨⟨rfl, rfl⟩, ?plp⟩⟩
  case pha => rw [exec_pha, push_eq, stackIndex]
  case pla =>
    rw [exec_pla_lda, lda_eq]
    rfl
  case php => rw [exec_php, push_eq, stackIndex, statusImage_eq]
  case plp => exact exec_plp s

end Sys2Proof.Machine

/-! PROOF of O21 to O24. The flags of ADC, SBC and the compares as comparisons of exact numbers, so that a form is the operand
read of its mode with that effect; INC and DEC are the read-modify-write shape, and INX to DEY load a register with the byte
one above or below its own (43_arithmetic.md R146 to R156). -/

namespace Sys2Proof.Machine

/-! ### The effect of each mnemonic as one record update. -/

/-- N of a byte given by a number is that number's bit 7 modulo 256 (R16). -/
theorem ofNat_getLsbD_7 (k : Nat) : (BitVec.ofNat 8 k).getLsbD 7 = decide (128 ≤ k % 256) := by
  rw [byte_sign, BitVec.toNat_ofNat]

/-- Z of a byte given by a number is whether that number is a multiple of 256 (R16). -/
theorem ofNat_eq_zero_iff (k : Nat) : BitVec.ofNat 8 k = 0 ↔ k % 256 = 0 := by
  rw [← BitVec.toNat_inj, BitVec.toNat_ofNat]
  rfl

theorem carry_toInt (c : Bool) : (c.toNat : Int) = if c then 1 else 0 := by
  cases c <;> rfl

/-- ADC: A, C, N and Z come from the unsigned sum, V from the signed one (R146). -/
theorem adc_eq (t : State) (m : Byte) :
    t.adc m =
      { t with cpu := { t.cpu with
          a := BitVec.ofNat 8 (addSum t.cpu.a m t.cpu.c)
          c := decide (255 < addSum t.cpu.a m t.cpu.c)
          v := decide (t.cpu.a.toInt + m.toInt + (if t.cpu.c then 1 else 0) < -128
            ∨ 127 < t.cpu.a.toInt + m.toInt + (if t.cpu.c then 1 else 0))
          n := decide (128 ≤ addSum t.cpu.a m t.cpu.c % 256)
          z := decide (addSum t.cpu.a m t.cpu.c % 256 = 0) } } := by
  rw [← carry_toInt, ← addOverflow_eq, ← ofNat_getLsbD_7, ← decide_eq_decide.mpr (ofNat_eq_zero_iff _)]
  rfl

/-- SBC: A, N and Z come from the difference with the borrow, C from the unsigned one, V from the signed one (R147). -/
theorem sbc_eq (t : State) (m : Byte) :
    t.sbc m =
      { t with cpu := { t.cpu with
          a := t.cpu.a - m - BitVec.ofNat 8 (if t.cpu.c then 0 else 1)
          c := decide (m.toNat + (if t.cpu.c then 0 else 1) ≤ t.cpu.a.toNat)
          v := decide (t.cpu.a.toInt - m.toInt - (if t.cpu.c then 0 else 1) < -128
            ∨ 127 < t.cpu.a.toInt - m.toInt - (if t.cpu.c then 0 else 1))
          n := (t.cpu.a - m - BitVec.ofNat 8 (if t.cpu.c then 0 else 1)).getLsbD 7
          z := decide (t.cpu.a - m - BitVec.ofNat 8 (if t.cpu.c then 0 else 1) = 0) } } := by
  rw [← subResult_eq, ← subCarry_eq, ← subOverflow_eq]
  rfl

theorem cmp_eq : State.cmp = fun t m =>
    { t with cpu := { t.cpu with
        c := decide (m.toNat ≤ t.cpu.a.toNat), z := decide (t.cpu.a = m), n := (t.cpu.a - m).getLsbD 7 } } := rfl

theorem cpx_eq : State.cpx = fun t m =>
    { t with cpu := { t.cpu with
        c := decide (m.toNat ≤ t.cpu.x.toNat), z := decide (t.cpu.x = m), n := (t.cpu.x - m).getLsbD 7 } } := rfl

theorem cpy_eq : State.cpy = fun t m =>
    { t with cpu := { t.cpu with
        c := decide (m.toNat ≤ t.cpu.y.toNat), z := decide (t.cpu.y = m), n := (t.cpu.y - m).getLsbD 7 } } := rfl

/-! ### Increment and decrement, of memory and of a register. -/

/-- INC on memory, whatever its mode (R151). -/
theorem onModify_inc (ea : Addr) (s : State) :
    ModifiesAt (onModify State.inc ea s) ea s (fun _ m => m + 1)
      (fun r m => { r with n := (m + 1).getLsbD 7, z := decide (m + 1 = 0) }) :=
  onModify_modifiesAt State.inc _ _ (fun _ _ => rfl) ea s

/-- DEC on memory, whatever its mode (R152). -/
theorem onModify_dec (ea : Addr) (s : State) :
    ModifiesAt (onModify State.dec ea s) ea s (fun _ m => m - 1)
      (fun r m => { r with n := (m - 1).getLsbD 7, z := decide (m - 1 = 0) }) :=
  onModify_modifiesAt State.dec _ _ (fun _ _ => rfl) ea s

/-! INX, DEX, INY and DEY set register, N and Z as a load of the byte one above or below does (R153 to R156). -/

theorem exec_inx (s : State) : exec .inx s = .next (s.ldx (s.cpu.x + 1)) := rfl
theorem exec_dex (s : State) : exec .dex s = .next (s.ldx (s.cpu.x - 1)) := rfl
theorem exec_iny (s : State) : exec .iny s = .next (s.ldy (s.cpu.y + 1)) := rfl
theorem exec_dey (s : State) : exec .dey s = .next (s.ldy (s.cpu.y - 1)) := rfl

/-- Settles O21: each form is the operand read of its mode with ADC's effect, as `adc_eq` gives it. -/
theorem adcInstructions : Obligations.AdcInstructions := by
  intro s adc
  have hadc : adc = State.adc := funext fun t => funext fun m => (adc_eq t m).symm
  rw [hadc]
  refine ⟨?imm, ?zp, ?zpX, ?abs, ?absX, ?absY, ?indX, ?indY⟩
  case imm => exact fun m => ⟨⟨rfl, rfl⟩, rfl⟩
  case zp => exact fun p => ⟨⟨rfl, rfl⟩, onRead_readZp s _ p⟩
  case zpX => exact fun p => ⟨⟨rfl, rfl⟩, onRead_readZpX s _ p⟩
  case abs => exact fun a => ⟨⟨rfl, rfl⟩, onRead_readAbs s _ a⟩
  case absX => exact fun a => ⟨costs_pageCross rfl rfl, onRead_readAbsX s _ a⟩
  case absY => exact fun a => ⟨costs_pageCross rfl rfl, onRead_readAbsY s _ a⟩
  case indX => exact fun p => ⟨⟨rfl, rfl⟩, onRead_readIndX s _ p⟩
  case indY => exact fun p => ⟨costs_pageCross rfl rfl, onRead_readIndY s _ p⟩

/-- Settles O22: each form is the operand read of its mode with SBC's effect, as `sbc_eq` gives it. -/
theorem sbcInstructions : Obligations.SbcInstructions := by
  intro s sbc
  have hsbc : sbc = State.sbc := funext fun t => funext fun m => (sbc_eq t m).symm
  rw [hsbc]
  refine ⟨?imm, ?zp, ?zpX, ?abs, ?absX, ?absY, ?indX, ?indY⟩
  case imm => exact fun m => ⟨⟨rfl, rfl⟩, rfl⟩
  case zp => exact fun p => ⟨⟨rfl, rfl⟩, onRead_readZp s _ p⟩
  case zpX => exact fun p => ⟨⟨rfl, rfl⟩, onRead_readZpX s _ p⟩
  case abs => exact fun a => ⟨⟨rfl, rfl⟩, onRead_readAbs s _ a⟩
  case absX => exact fun a => ⟨costs_pageCross rfl rfl, onRead_readAbsX s _ a⟩
  case absY => exact fun a => ⟨costs_pageCross rfl rfl, onRead_readAbsY s _ a⟩
  case indX => exact fun p => ⟨⟨rfl, rfl⟩, onRead_readIndX s _ p⟩
  case indY => exact fun p => ⟨costs_pageCross rfl rfl, onRead_readIndY s _ p⟩

/-- Settles O23: each form is the operand read of its mode with the compare of its register. -/
theorem compareInstructions : Obligations.CompareInstructions := by
  unfold Obligations.CompareInstructions
  rw [← cmp_eq, ← cpx_eq, ← cpy_eq]
  intro s
  refine ⟨?cmpImm, ?cmpZp, ?cmpZpX, ?cmpAbs, ?cmpAbsX, ?cmpAbsY, ?cmpIndX, ?cmpIndY,
    ?cpxImm, ?cpxZp, ?cpxAbs, ?cpyImm, ?cpyZp, ?cpyAbs⟩
  case cmpImm | cpxImm | cpyImm => exact fun m => ⟨⟨rfl, rfl⟩, rfl⟩
  case cmpZp | cpxZp | cpyZp => exact fun p => ⟨⟨rfl, rfl⟩, onRead_readZp s _ p⟩
  case cmpZpX => exact fun p => ⟨⟨rfl, rfl⟩, onRead_readZpX s _ p⟩
  case cmpAbs | cpxAbs | cpyAbs => exact fun a => ⟨⟨rfl, rfl⟩, onRead_readAbs s _ a⟩
  case cmpAbsX => exact fun a => ⟨costs_pageCross rfl rfl, onRead_readAbsX s _ a⟩
  case cmpAbsY => exact fun a => ⟨costs_pageCross rfl rfl, onRead_readAbsY s _ a⟩
  case cmpIndX => exact fun p => ⟨⟨rfl, rfl⟩, onRead_readIndX s _ p⟩
  case cmpIndY => exact fun p => ⟨costs_pageCross rfl rfl, onRead_readIndY s _ p⟩

/-- Settles O24: the memory forms modify the byte at the address of their mode, the register forms are loads. -/
theorem incDecInstructions : Obligations.IncDecInstructions := by
  intro s incFlags decFlags
  rw [exec_inx, exec_dex, exec_iny, exec_dey, ldx_eq, ldy_eq]
  refine ⟨?incZp, ?incZpX, ?incAbs, ?incAbsX, ?decZp, ?decZpX, ?decAbs, ?decAbsX, ?inx, ?dex, ?iny, ?dey⟩
  case incZp => exact fun p => ⟨⟨rfl, rfl⟩, onModify_inc (eaZp p) s⟩
  case incZpX => exact fun p => ⟨⟨rfl, rfl⟩, onModify_inc (eaZpIndexed p s.cpu.x) s⟩
  case incAbs => exact fun a => ⟨⟨rfl, rfl⟩, onModify_inc a s⟩
  case incAbsX => exact fun a => ⟨⟨rfl, rfl⟩, onModify_inc (eaIndexed a s.cpu.x) s⟩
  case decZp => exact fun p => ⟨⟨rfl, rfl⟩, onModify_dec (eaZp p) s⟩
  case decZpX => exact fun p => ⟨⟨rfl, rfl⟩, onModify_dec (eaZpIndexed p s.cpu.x) s⟩
  case decAbs => exact fun a => ⟨⟨rfl, rfl⟩, onModify_dec a s⟩
  case decAbsX => exact fun a => ⟨⟨rfl, rfl⟩, onModify_dec (eaIndexed a s.cpu.x) s⟩
  case inx | dex | iny | dey => exact ⟨⟨rfl, rfl⟩, rfl⟩

end Sys2Proof.Machine

/-! PROOF of O25 and O26. AND, ORA, EOR and BIT are operand reads with the effect of their mnemonic. A shift or rotate gives
a byte and changes flags only, so its memory forms are the read-modify-write shape and its accumulator form is that
operation on A (44_logic_shift.md R165 to R172). -/

namespace Sys2Proof.Machine

/-! ### The effect of each logic mnemonic as one record update. -/

theorem and_eq : State.and = fun t m =>
    { t with cpu := { t.cpu with
        a := t.cpu.a &&& m, n := (t.cpu.a &&& m).getLsbD 7, z := decide (t.cpu.a &&& m = 0) } } := rfl

theorem ora_eq : State.ora = fun t m =>
    { t with cpu := { t.cpu with
        a := t.cpu.a ||| m, n := (t.cpu.a ||| m).getLsbD 7, z := decide (t.cpu.a ||| m = 0) } } := rfl

theorem eor_eq : State.eor = fun t m =>
    { t with cpu := { t.cpu with
        a := t.cpu.a ^^^ m, n := (t.cpu.a ^^^ m).getLsbD 7, z := decide (t.cpu.a ^^^ m = 0) } } := rfl

/-- BIT takes N and V from the operand, not from `A & m` (R168). -/
theorem bitTest_eq : State.bitTest = fun t m =>
    { t with cpu := { t.cpu with
        z := decide (t.cpu.a &&& m = 0), n := m.getLsbD 7, v := m.getLsbD 6 } } := rfl

/-! ### Each shift and rotate: its result as arithmetic modulo 256, and the flags it changes. -/

theorem asl_eq (t : State) (v : Byte) :
    t.asl v = (BitVec.ofNat 8 (v.toNat * 2), { t with cpu := { t.cpu with
      c := v.getLsbD 7
      n := (BitVec.ofNat 8 (v.toNat * 2)).getLsbD 7
      z := decide (BitVec.ofNat 8 (v.toNat * 2) = 0) } }) := by
  rw [← asl_result]
  rfl

theorem lsr_eq (t : State) (v : Byte) :
    t.lsr v = (BitVec.ofNat 8 (v.toNat / 2), { t with cpu := { t.cpu with
      c := v.getLsbD 0
      n := (BitVec.ofNat 8 (v.toNat / 2)).getLsbD 7
      z := decide (BitVec.ofNat 8 (v.toNat / 2) = 0) } }) := by
  rw [← lsr_result]
  rfl

/-- ROL: the old C enters at bit 0 (R171). -/
theorem rol_eq (t : State) (v : Byte) :
    t.rol v = (BitVec.ofNat 8 (v.toNat * 2 + t.cpu.c.toNat), { t with cpu := { t.cpu with
      c := v.getLsbD 7
      n := (BitVec.ofNat 8 (v.toNat * 2 + t.cpu.c.toNat)).getLsbD 7
      z := decide (BitVec.ofNat 8 (v.toNat * 2 + t.cpu.c.toNat) = 0) } }) := by
  rw [← rol_result]
  rfl

/-- ROR: the old C enters at bit 7 (R172). -/
theorem ror_eq (t : State) (v : Byte) :
    t.ror v = (BitVec.ofNat 8 (v.toNat / 2 + t.cpu.c.toNat * 128), { t with cpu := { t.cpu with
      c := v.getLsbD 0
      n := (BitVec.ofNat 8 (v.toNat / 2 + t.cpu.c.toNat * 128)).getLsbD 7
      z := decide (BitVec.ofNat 8 (v.toNat / 2 + t.cpu.c.toNat * 128) = 0) } }) := by
  rw [← ror_result]
  rfl

/-- What an accumulator form answers, given that its operation changes flags only: the companion of
`onModify_modifiesAt` (R102). -/
theorem onAccumulator_eq {op : State → Byte → Byte × State} {result : Cpu → Byte → Byte} {flags : Cpu → Byte → Cpu}
    (hop : ∀ t v, op t v = (result t.cpu v, { t with cpu := flags t.cpu v })) (s : State) :
    onAccumulator op s =
      .next { s with cpu := { flags s.cpu s.cpu.a with a := result s.cpu s.cpu.a } } := by
  rw [onAccumulator, hop]
  rfl

/-- Settles O25: each form is the operand read of its mode with the effect of its mnemonic. -/
theorem logicInstructions : Obligations.LogicInstructions := by
  unfold Obligations.LogicInstructions
  rw [← and_eq, ← ora_eq, ← eor_eq, ← bitTest_eq]
  intro s
  refine ⟨?andImm, ?andZp, ?andZpX, ?andAbs, ?andAbsX, ?andAbsY, ?andIndX, ?andIndY,
    ?oraImm, ?oraZp, ?oraZpX, ?oraAbs, ?oraAbsX, ?oraAbsY, ?oraIndX, ?oraIndY,
    ?eorImm, ?eorZp, ?eorZpX, ?eorAbs, ?eorAbsX, ?eorAbsY, ?eorIndX, ?eorIndY, ?bitZp, ?bitAbs⟩
  case andImm | oraImm | eorImm => exact fun m => ⟨⟨rfl, rfl⟩, rfl⟩
  case andZp | oraZp | eorZp | bitZp => exact fun p => ⟨⟨rfl, rfl⟩, onRead_readZp s _ p⟩
  case andZpX | oraZpX | eorZpX => exact fun p => ⟨⟨rfl, rfl⟩, onRead_readZpX s _ p⟩
  case andAbs | oraAbs | eorAbs | bitAbs => exact fun a => ⟨⟨rfl, rfl⟩, onRead_readAbs s _ a⟩
  case andAbsX | oraAbsX | eorAbsX => exact fun a => ⟨costs_pageCross rfl rfl, onRead_readAbsX s _ a⟩
  case andAbsY | oraAbsY | eorAbsY => exact fun a => ⟨costs_pageCross rfl rfl, onRead_readAbsY s _ a⟩
  case andIndX | oraIndX | eorIndX => exact fun p => ⟨⟨rfl, rfl⟩, onRead_readIndX s _ p⟩
  case andIndY | oraIndY | eorIndY => exact fun p => ⟨costs_pageCross rfl rfl, onRead_readIndY s _ p⟩

/-- Settles O26: by `asl_eq`, `lsr_eq`, `rol_eq` and `ror_eq` each operation gives the stated result and flags, so a memory
form modifies the byte at the address of its mode and an accumulator form modifies A. -/
theorem shiftInstructions : Obligations.ShiftInstructions := by
  intro s asl aslFlags lsr lsrFlags rol rolFlags ror rorFlags
  have hasl : ∀ t v, State.asl t v = (asl t.cpu v, { t with cpu := aslFlags t.cpu v }) := asl_eq
  have hlsr : ∀ t v, State.lsr t v = (lsr t.cpu v, { t with cpu := lsrFlags t.cpu v }) := lsr_eq
  have hrol : ∀ t v, State.rol t v = (rol t.cpu v, { t with cpu := rolFlags t.cpu v }) := rol_eq
  have hror : ∀ t v, State.ror t v = (ror t.cpu v, { t with cpu := rorFlags t.cpu v }) := ror_eq
  refine ⟨?aslAcc, ?aslZp, ?aslZpX, ?aslAbs, ?aslAbsX, ?lsrAcc, ?lsrZp, ?lsrZpX, ?lsrAbs, ?lsrAbsX,
    ?rolAcc, ?rolZp, ?rolZpX, ?rolAbs, ?rolAbsX, ?rorAcc, ?rorZp, ?rorZpX, ?rorAbs, ?rorAbsX⟩
  case aslAcc | lsrAcc | rolAcc | rorAcc => exact ⟨⟨rfl, rfl⟩, onAccumulator_eq (by assumption) s⟩
  case aslZp | lsrZp | rolZp | rorZp =>
    exact fun p => ⟨⟨rfl, rfl⟩, onModify_modifiesAt _ _ _ (by assumption) (eaZp p) s⟩
  case aslZpX | lsrZpX | rolZpX | rorZpX =>
    exact fun p => ⟨⟨rfl, rfl⟩, onModify_modifiesAt _ _ _ (by assumption) (eaZpIndexed p s.cpu.x) s⟩
  case aslAbs | lsrAbs | rolAbs | rorAbs =>
    exact fun a => ⟨⟨rfl, rfl⟩, onModify_modifiesAt _ _ _ (by assumption) a s⟩
  case aslAbsX | lsrAbsX | rolAbsX | rorAbsX =>
    exact fun a => ⟨⟨rfl, rfl⟩, onModify_modifiesAt _ _ _ (by assumption) (eaIndexed a s.cpu.x) s⟩

end Sys2Proof.Machine

/-! PROOF of O27 and O28. A branch on a flag is `onBranch` with the operand byte as its displacement (R113, R185); the
indirect jump is two bus reads, each admitted or refused as any other, and JSR and RTS are the record updates of
`exec_jsr` and `exec_rts` (45_control_flow.md). -/

namespace Sys2Proof.Machine

/-! ### The branches. -/

/-- The target of an encoded branch: PC plus the sign-extended operand byte (R113). -/
theorem branchTarget_toInt (pc : Addr) (b : Byte) : branchTarget pc b.toInt = pc + b.signExtend 16 := by
  rw [branchTarget, displacement_signExtend]

/-- What one of the eight branches does, given its opcode and the condition on a flag it tests (R185, R412). -/
theorem branch_of_condition {i : Instr} {s : State} {op b : Byte} {condition : Bool} {taken : Prop} [Decidable taken]
    (hcondition : condition = decide taken) (hbytes : encode i = [op, dispByte b.toInt])
    (hexec : exec i s = onBranch condition b.toInt s) (hcycles : cyclesOf i s = branchCycles condition b.toInt s) :
    encode i = [op, b] ∧
    exec i s = .next (if taken then s.setPc (s.cpu.pc + b.signExtend 16) else s) ∧
    cyclesOf i s = if taken then (if hi s.cpu.pc = hi (s.cpu.pc + b.signExtend 16) then 3 else 4) else 2 := by
  subst hcondition
  refine ⟨?bytes, ?answer, ?cycles⟩
  case bytes => rw [hbytes, dispByte_of_toInt]
  case answer => simp only [hexec, onBranch, branchTarget_toInt, decide_eq_true_eq]
  case cycles => simp only [hcycles, branchCycles, branchTarget_toInt, decide_eq_true_eq]

/-- Settles O27: each branch tests its flag for 1 or for 0. -/
theorem branchInstructions : Obligations.BranchInstructions := by
  intro s
  refine ⟨?bcc, ?bcs, ?beq, ?bne, ?bmi, ?bpl, ?bvc, ?bvs⟩
  case bcc | bne | bpl | bvc => exact fun _ => branch_of_condition Bool.decide_eq_false.symm rfl rfl rfl
  case bcs | beq | bmi | bvs => exact fun _ => branch_of_condition Bool.decide_eq_true.symm rfl rfl rfl

/-! ### The indirect jump. -/

/-- A refused bus read is refused for OAM or for VRAM (R294). -/
theorem memRead_refused_cases {s : State} {a : Addr} (h : s.readAdmitted a = false) :
    memRead a s = .error .oamUnsafe ∨ memRead a s = .error .vramUnsafe := by
  rw [memRead_refused h]
  split
  · exact .inl rfl
  · exact .inr rfl

/-- A pointer both of whose bytes may be read: the target is made of the two bytes read, low byte first (R110). -/
theorem readPointer_admitted {s : State} {ptr : Addr} (hlow : s.readAdmitted ptr = true)
    (hhigh : (s.afterRead ptr).readAdmitted (pointerHigh ptr) = true) :
    readPointer ptr s = .ok (wordOf (s.readValue ptr) ((s.afterRead ptr).readValue (pointerHigh ptr)),
      (s.afterRead ptr).afterRead (pointerHigh ptr)) := by
  simp only [readPointer, memRead_admitted hlow, memRead_admitted hhigh]

/-- A pointer one of whose bytes may not be read is refused: the low byte's read comes first (R110, R294). -/
theorem readPointer_refused {s : State} {ptr : Addr}
    (h : s.readAdmitted ptr = false ∨ (s.afterRead ptr).readAdmitted (pointerHigh ptr) = false) :
    readPointer ptr s = .error .oamUnsafe ∨ readPointer ptr s = .error .vramUnsafe := by
  cases hlow : s.readAdmitted ptr with
  | false => rcases memRead_refused_cases hlow with e | e <;> simp [readPointer, e]
  | true =>
    have hhigh : (s.afterRead ptr).readAdmitted (pointerHigh ptr) = false := by simpa [hlow] using h
    rcases memRead_refused_cases hhigh with e | e <;> simp [readPointer, memRead_admitted hlow, e]

/-- A pointer in plain memory: its two bytes are the target and reading them changes nothing. -/
theorem readPointer_plain {s : State} {ptr : Addr} (hlow : s.plain ptr = true) (hhigh : s.plain (pointerHigh ptr) = true) :
    readPointer ptr s = .ok (wordOf (s.plainByte ptr) (s.plainByte (pointerHigh ptr)), s) := by
  simp only [readPointer, memRead_plain hlow, memRead_plain hhigh]

theorem exec_jmpInd_of_ok {s t : State} {ptr target : Addr} (h : readPointer ptr s = .ok (target, t)) :
    exec (.jmpInd ptr) s = .next (t.setPc target) := by
  change execJmpInd ptr s = _
  simp only [execJmpInd, h]

theorem exec_jmpInd_of_error {s : State} {ptr : Addr} {e : Refusal} (h : readPointer ptr s = .error e) :
    exec (.jmpInd ptr) s = .refused e := by
  change execJmpInd ptr s = _
  simp only [execJmpInd, h]

/-- The indirect jump through a pointer that may be read, with the CPU written from the state before the reads (R181). -/
theorem exec_jmpInd_admitted {s : State} {ptr : Addr} (hlow : s.readAdmitted ptr = true)
    (hhigh : (s.afterRead ptr).readAdmitted (pointerHigh ptr) = true) :
    exec (.jmpInd ptr) s = .next { (s.afterRead ptr).afterRead (pointerHigh ptr) with
      cpu := { s.cpu with
        pc := wordOf (s.readValue ptr) ((s.afterRead ptr).readValue (pointerHigh ptr)) } } := by
  rw [exec_jmpInd_of_ok (readPointer_admitted hlow hhigh), State.setPc, afterRead_cpu, afterRead_cpu]

/-- Settles O28: JMP sets PC, JMP indirect reads its pointer, JSR and RTS push and pull the return address. -/
theorem jumpInstructions : Obligations.JumpInstructions := by
  intro s
  refine ⟨?jmpAbs, ?jmpInd, ?jsr, ?rts⟩
  case jmpAbs => exact fun a => ⟨⟨rfl, rfl⟩, rfl⟩
  case jmpInd =>
    exact fun a => ⟨⟨rfl, rfl⟩, exec_jmpInd_admitted,
      fun h => (readPointer_refused h).imp exec_jmpInd_of_error exec_jmpInd_of_error,
      fun hlow hhigh => exec_jmpInd_of_ok (readPointer_plain hlow hhigh)⟩
  case jsr => exact fun a => ⟨⟨rfl, rfl⟩, exec_jsr s a⟩
  case rts => exact ⟨⟨rfl, rfl⟩, exec_rts s⟩

end Sys2Proof.Machine

/-! PROOF of O9 to O11 and O29. BRK is an entry through the IRQ vector and RTI the return from one, so that RTI after any of the
three entries undoes all of it but the stack bytes; CLC to CLV set one flag each (46_flags_system.md R200 to R211). -/

namespace Sys2Proof.Machine

/-! ### Which shared operation each instruction is. -/

theorem exec_clc (s : State) : exec .clc s = .next (s.setC false) := rfl
theorem exec_sec (s : State) : exec .sec s = .next (s.setC true) := rfl
theorem exec_cli (s : State) : exec .cli s = .next (s.setI false) := rfl
theorem exec_sei (s : State) : exec .sei s = .next (s.setI true) := rfl
theorem exec_cld (s : State) : exec .cld s = .next (s.setD false) := rfl
theorem exec_sed (s : State) : exec .sed s = .next (s.setD true) := rfl
theorem exec_clv (s : State) : exec .clv s = .next (s.setV false) := rfl
theorem exec_nop (s : State) : exec .nop s = .next s := rfl
theorem exec_brk (s : State) : exec .brk s = .next (s.enter (s.cpu.pc + 1) true 0xFFFE) := rfl
theorem exec_rti (s : State) : exec .rti s = .next s.returnFromInterrupt := rfl

/-! ### RTI after an entry. -/

/-- RTI undoes an entry up to the return address and the three stack bytes at and below S (R211, R222, R236). -/
theorem exec_rti_enter (s : State) (ret : Addr) (b : Bool) (vec : Addr) :
    ∃ t, exec .rti (s.enter ret b vec) = .next t ∧ t = { s with cpu := { s.cpu with pc := ret }, ram := t.ram } ∧
      ∀ k, k ≠ stackIndex s.cpu.sp → k ≠ stackIndex (s.cpu.sp - 1) → k ≠ stackIndex (s.cpu.sp - 2) →
        t.ram.read k = s.ram.read k := by
  refine ⟨_, exec_rti _, ?_⟩
  rw [returnFromInterrupt_enter]
  exact ⟨rfl, fun k => pushedThree_other _ _ _ _ _⟩

/-- Settles O11: NMI, IRQ and BRK are each an entry, NMI's with the latch cleared before it and BRK's returning past the
padding byte. -/
theorem handlerReturns : Obligations.HandlerReturns := by
  intro s
  refine ⟨?nmi, ?irq, ?brk⟩
  case nmi => exact exec_rti_enter (s.setNmiPending false) s.cpu.pc false 0xFFFA
  case irq => exact exec_rti_enter s s.cpu.pc false 0xFFFE
  case brk =>
    obtain ⟨u, hrti, hu, houtside⟩ := exec_rti_enter s (s.cpu.pc + 1) true 0xFFFE
    exact ⟨_, u, exec_brk s, hrti, hu, houtside⟩

/-! ### Each instruction's next state. -/

/-- Settles O9: the entry of R222 with the return address past the padding byte and B = 1. -/
theorem brkEntry : Obligations.BrkEntry := by
  intro s
  refine ⟨⟨rfl, rfl⟩, ?_⟩
  rw [exec_brk, enter_eq, vector_irq, statusImage_eq]
  rfl

/-- Settles O10: the flags from the first byte pulled, PC from the next two. -/
theorem rtiRestores : Obligations.RtiRestores := by
  intro s
  refine ⟨⟨rfl, rfl⟩, ?_⟩
  rw [exec_rti, returnFromInterrupt_eq]
  rfl

/-- Settles O29: each flag instruction is the setter of its flag, and NOP sets none. -/
theorem flagInstructions : Obligations.FlagInstructions := by
  intro s
  rw [exec_clc, exec_sec, exec_cli, exec_sei, exec_cld, exec_sed, exec_clv, exec_nop]
  refine ⟨?clc, ?sec, ?cli, ?sei, ?cld, ?sed, ?clv, ?nop⟩
  case clc | sec | cli | sei | cld | sed | clv | nop => exact ⟨⟨rfl, rfl⟩, rfl⟩

end Sys2Proof.Machine

/-! PROOF of O7 and O8. Which move a boundary goes to, by the order of R221, and what the two interrupt entries leave behind
(60_exceptions.md R221 to R224). -/

namespace Sys2Proof.Machine

/-! ### Who has the boundary. -/

section boundary
variable {s : State} {inp : HostInput}

theorem nextMove_reset (haction : inp.action = .resetButton) : s.nextMove inp = .reset := by
  simp only [State.nextMove, haction]

theorem nextMove_power (haction : inp.action = .powerCycle) : s.nextMove inp = .power := by
  simp only [State.nextMove, haction]

theorem nextMove_dma (haction : inp.action = .none) (hdma : s.dma.active = true) : s.nextMove inp = .dma := by
  simp only [State.nextMove, haction, hdma, if_true]

theorem nextMove_nmi (haction : inp.action = .none) (hdma : s.dma.active = false) (hnmi : s.cpu.nmiPending = true)
    (hdefers : s.defers inp = false) : s.nextMove inp = .nmi := by
  simp [State.nextMove, haction, hdma, hnmi, hdefers]

/-- An IRQ is taken where nothing before it in the order has the boundary, I is clear and the line asserted (R221, R223). -/
theorem nextMove_eq_irq_iff : s.nextMove inp = .irq ↔ inp.action = .none ∧ s.dma.active = false ∧
    s.cpu.nmiPending = false ∧ s.cpu.i = false ∧ s.irqLine = true ∧ s.defers inp = false := by
  unfold State.nextMove
  cases inp.action
  case resetButton | powerCycle => simp
  case none =>
    cases s.dma.active
    case true => simp
    case false => cases s.cpu.nmiPending <;> cases s.defers inp <;> simp

/-! ### What each move is. -/

theorem move_reset (h : s.nextMove inp = .reset) : s.move inp = .next (s.takeReset.elapse inp entryCycles) := by
  simp only [State.move, h]

theorem move_power (h : s.nextMove inp = .power) : s.move inp = .next s.powerCycle := by
  simp only [State.move, h]

theorem move_dma (h : s.nextMove inp = .dma) : s.move inp = s.dmaMove inp := by
  simp only [State.move, h]

theorem move_nmi (h : s.nextMove inp = .nmi) : s.move inp = .next (s.takeNmi.elapse inp entryCycles) := by
  simp only [State.move, h]

theorem move_irq (h : s.nextMove inp = .irq) : s.move inp = .next (s.takeIrq.elapse inp entryCycles) := by
  simp only [State.move, h]

theorem move_instruction (h : s.nextMove inp = .instruction) : s.move inp = s.instructionStep inp := by
  simp only [State.move, h]

end boundary

/-- Settles O7: a step is the move of whoever has the boundary in the state with the input taken in. -/
theorem boundaryPriority : Obligations.BoundaryPriority := by
  intro s t inp deferred
  have hdefers : t.defers inp = true ↔ deferred := defers_eq_true_iff (s := t)
  refine ⟨fun h => move_reset (nextMove_reset h), fun h => move_power (nextMove_power h),
    fun h hdma => move_dma (nextMove_dma h hdma), ?nmi, ?irq, ?instruction⟩
  case nmi =>
    intro h hdma hnmi hnot
    rw [← hdefers, Bool.not_eq_true] at hnot
    exact move_nmi (nextMove_nmi h hdma hnmi hnot)
  case irq =>
    intro h hdma hnmi hi hline hnot
    rw [← hdefers, Bool.not_eq_true] at hnot
    exact move_irq (nextMove_eq_irq_iff.mpr ⟨h, hdma, hnmi, hi, hline, hnot⟩)
  case instruction =>
    rintro h hdma (hdef | ⟨hnmi, hirq⟩)
    · exact move_instruction
        (nextMove_instruction h hdma (.inr (hdefers.mpr hdef)) (.inr (.inr (hdefers.mpr hdef))))
    · exact move_instruction (nextMove_instruction h hdma (.inl hnmi) (hirq.imp_right .inl))

/-! ### The interrupt entries. -/

/-- `take Nmi` as one record update: the entry with the latch cleared (R222, R224). -/
theorem takeNmi_eq (s : State) : s.takeNmi = { s with
    cpu := { s.cpu with
      sp := s.cpu.sp - 3, i := true, nmiPending := false
      pc := wordOf (s.prg.read 0x3FFFA) (s.prg.read 0x3FFFB) }
    ram := pushedThree s.ram s.cpu.sp (hi s.cpu.pc) (lo s.cpu.pc) (statusImage s.cpu false) } := by
  rw [State.takeNmi, enter_eq, vector_nmi, statusImage_eq]
  rfl

/-- `take Irq` as one record update (R222, R223). -/
theorem takeIrq_eq (s : State) : s.takeIrq = { s with
    cpu := { s.cpu with sp := s.cpu.sp - 3, i := true, pc := wordOf (s.prg.read 0x3FFFE) (s.prg.read 0x3FFFF) }
    ram := pushedThree s.ram s.cpu.sp (hi s.cpu.pc) (lo s.cpu.pc) (statusImage s.cpu false) } := by
  rw [State.takeIrq, enter_eq, vector_irq, statusImage_eq]

/-- Settles O8: each entry is its record update, the stack of which reads back the three pushed bytes; an IRQ is taken
only with I clear; BRK's entry is the same operation. -/
theorem interruptEntry : Obligations.InterruptEntry := by
  intro s
  refine ⟨takeNmi_eq s, takeIrq_eq s, ?nmiStack, ?irqStack, ?masked, rfl, rfl, rfl⟩
  case nmiStack =>
    rw [takeNmi_eq]
    exact ⟨pushedThree_first _ _ _ _ _, pushedThree_second _ _ _ _ _, pushedThree_third _ _ _ _ _⟩
  case irqStack =>
    rw [takeIrq_eq]
    exact ⟨pushedThree_first _ _ _ _ _, pushedThree_second _ _ _ _ _, pushedThree_third _ _ _ _ _⟩
  case masked =>
    intro inp hmove
    obtain ⟨-, -, -, hi, -⟩ := nextMove_eq_irq_iff.mp hmove
    exact hi

end Sys2Proof.Machine

/-! PROOF of O12. The reset button as the update of a few fields, and a power cycle as the power-on state of the same image
and WRAM (60_exceptions.md R226, 70_reset_and_hazards.md R385 to R389). -/

namespace Sys2Proof.Machine

/-- The CPU after the reset button: PC is the word at $FFFC, in the bank fixed there (R31, R226, R385). -/
theorem takeReset_cpu (s : State) : s.takeReset.cpu = { s.cpu with
    sp := s.cpu.sp - 3, i := true, nmiPending := false
    pc := wordOf (s.prg.read 0x3FFFC) (s.prg.read 0x3FFFD) } := by
  rw [← vector_reset]
  rfl

/-- Settles O12: the reset button's CPU, and the fields that the button, a power cycle and power-on write or keep. -/
theorem resetAndPower : Obligations.ResetAndPower := by
  refine ⟨fun s => ⟨takeReset_cpu s, ?button⟩, fun prg chr wram => ?powerOn, rfl⟩
  case button => exact ⟨rfl, rfl, rfl, rfl, rfl, rfl, rfl, rfl, rfl, rfl, rfl, rfl, rfl, rfl⟩
  case powerOn => exact ⟨rfl, rfl, rfl, rfl, rfl, rfl, rfl, rfl, rfl⟩

end Sys2Proof.Machine

/-! PROOF of O32. The NMI output follows PPUCTRL and vblank: a write of PPUCTRL raises it where vblank is set and bit 7 rises,
and once a read of $2002 has cleared vblank no such write does (60_exceptions.md R227, 61_ppu.md R263, R266). -/

namespace Sys2Proof.Machine

/-- A write of PPUCTRL after warm-up takes effect, and the NMI output follows (R263, R396). -/
theorem memWrite_ctrl {s : State} {d : Byte} (hwarm : 2 ≤ s.ppu.vblanksSeen) (hd : d.getLsbD 6 = false) :
    memWrite 0x2000 d s = .ok (s.setPpuNmi (s.ppu.writeCtrl d)) := by
  have hreg : memWrite 0x2000 d s = s.writePpuReg 0 d := memWrite_ppu s d (by decide) (by decide)
  rw [hreg, State.writePpuReg, hd, State.writeWarm, if_pos hwarm]
  rfl

theorem memRead_status (s : State) : memRead 0x2002 s = .ok s.readStatus :=
  memRead_ppu s (a := 0x2002) (by decide) (by decide)

/-- After warm-up a read of $2002 counts no vblank further (R396). -/
theorem readStatus_vblanksSeen {s : State} (hwarm : 2 ≤ s.ppu.vblanksSeen) :
    s.readStatus.2.ppu.vblanksSeen = s.ppu.vblanksSeen := by
  have hcount : (s.ppu.vblank && decide (s.ppu.vblanksSeen < 2)) = false := by
    rw [decide_eq_false (Nat.not_lt.mpr hwarm), Bool.and_false]
  exact if_neg (Bool.eq_false_iff.mp hcount)

/-- `nmi_line` rises by a PPUCTRL write where vblank is set and bit 7 goes from 0 to 1 (R227). -/
theorem nmiLine_writeCtrl_rises (p : Ppu) (d : Byte) :
    ((p.writeCtrl d).nmiLine && !p.nmiLine) = (p.vblank && d.getLsbD 7 && !p.ctrl.getLsbD 7) := by
  have hline : (p.writeCtrl d).nmiLine = (p.vblank && d.getLsbD 7) := rfl
  rw [hline, Ppu.nmiLine]
  cases p.vblank <;> simp

/-- Where vblank is clear a PPUCTRL write leaves the whole CPU alone (R227). -/
theorem setPpuNmi_writeCtrl_cpu {s : State} (d : Byte) (hv : s.ppu.vblank = false) :
    (s.setPpuNmi (s.ppu.writeCtrl d)).cpu = s.cpu := by
  have hnmi : (s.setPpuNmi (s.ppu.writeCtrl d)).cpu =
      { s.cpu with nmiPending := s.cpu.nmiPending || ((s.ppu.writeCtrl d).nmiLine && !s.ppu.nmiLine) } := rfl
  rw [hnmi, nmiLine_writeCtrl_rises, hv, Bool.false_and, Bool.false_and, Bool.or_false]

/-- Settles O32: the write of PPUCTRL as the model's, and once more in the state that a read of $2002 leaves. -/
theorem nmiOutput : Obligations.NmiOutput := by
  intro s d hseen hd
  have hwarm : 2 ≤ s.ppu.vblanksSeen := hseen.ge
  have hread : 2 ≤ s.readStatus.2.ppu.vblanksSeen := by rwa [readStatus_vblanksSeen hwarm]
  refine ⟨⟨_, memWrite_ctrl hwarm hd, rfl, ?raises⟩,
    ⟨_, _, _, memRead_status s, rfl, rfl, memWrite_ctrl hread hd, ?quiet, rfl⟩⟩
  case raises => exact congrArg (s.cpu.nmiPending || ·) (nmiLine_writeCtrl_rises s.ppu d)
  case quiet => exact setPpuNmi_writeCtrl_cpu (s := s.readStatus.2) d rfl

end Sys2Proof.Machine

/-! PROOF of O49. The gates of R229 on the line: a component of `apu_irq` counts, latched or asked for by the host's script,
only while its own gate is open (60_exceptions.md R228, R229). -/

namespace Sys2Proof.Machine

/-- The line the CPU sees at a boundary: the MMC3's request, and each APU component that is latched or asked for, behind its
gate (R228, R229). -/
theorem takeInput_irqLine (s : State) : s.takeInput.irqLine = (s.mmc3.irqPending ||
    ((s.apu.frameIrq || s.nextInput.frameIrq) && !s.apu.frameIrqInhibit ||
      (s.apu.dmcIrq || s.nextInput.dmcIrq) && s.apu.dmcIrqEnabled)) := by
  simp only [State.irqLine, State.takeInput, Apu.irq, Apu.request, Bool.and_or_distrib_right, Bool.and_assoc,
    Bool.and_self]

/-- Settles O49: the line with its gates closed, with each open, and over an IRQ entry, which writes no source. -/
theorem apuIrqGate : Obligations.ApuIrqGate := by
  intro s
  rw [takeInput_irqLine]
  refine ⟨fun hinhibit hdmc => ?closed, fun hopen hask => ?frame, fun hopen hask => ?dmc, ?entry⟩
  case closed => rw [hinhibit, hdmc, Bool.not_true, Bool.and_false, Bool.and_false, Bool.or_false, Bool.or_false]
  case frame | dmc => simp [hopen, hask]
  case entry => rw [takeIrq_eq]; rfl

end Sys2Proof.Machine

/-! PROOF of O52. A step of the DMA engine is one bus read, one byte stored in OAM, and the time it takes; the read and the
time leave every memory alone (60_exceptions.md R221, 62_apu_io.md R318). -/

namespace Sys2Proof.Machine

/-- Time passing is dots of the PPU after the cycle counter moved, or not (R9, R417). -/
theorem elapse_frame (s : State) (inp : HostInput) (n : Nat) :
    ∃ cycles, DotFrame { s with cycles := cycles } (s.elapse inp n) := by
  unfold State.elapse
  split
  · exact ⟨s.cycles + n, ppuRun_frame _ _⟩
  · exact ⟨s.cycles, ppuRun_frame _ _⟩

/-- The engine's address is no PPU register where its page is no device's, so the read is admitted (R318). -/
theorem dmaSource_admitted {s : State} {index page : Byte} (h : dmaPageRefused page = false) :
    s.readAdmitted (wordOf index page) = true := by
  have hindex := index.isLt
  have hrange : (decide (0x2000 ≤ (wordOf index page).toNat) && decide ((wordOf index page).toNat < 0x4000)) = false := by
    simp only [dmaPageRefused, Bool.and_eq_false_iff, decide_eq_false_iff_not, wordOf_toNat] at h ⊢
    omega
  rw [State.readAdmitted, hrange, Bool.false_and, Bool.false_and, Bool.not_false]

/-- The engine stores the byte its source address reads, in the state the read leaves (R318). -/
theorem dmaStep_eq {s : State} (h : dmaPageRefused s.dma.page = false) :
    s.dmaStep = .ok ((s.afterRead s.dma.source).dmaStore (s.readValue s.dma.source)) := by
  have hadmitted : s.readAdmitted s.dma.source = true := dmaSource_admitted h
  simp only [State.dmaStep, memRead_admitted hadmitted]

/-- What a read at an address can change, whether it is admitted or not. -/
theorem afterRead_frame (s : State) (a : Addr) : ReadFrame s (s.afterRead a) := by
  unfold State.afterRead
  split
  next h => exact memRead_frame h
  next => exact ReadFrame.refl s

/-- The engine's boundary: the stored byte, then time (R318, R415). -/
theorem dmaMove_eq {s : State} (inp : HostInput) (h : dmaPageRefused s.dma.page = false) :
    s.dmaMove inp =
      .next (((s.afterRead s.dma.source).dmaStore (s.readValue s.dma.source)).elapse inp s.dmaCycles) := by
  simp only [State.dmaMove, dmaStep_eq h]

/-- The CPU over a byte of the transfer and some dots of the PPU: only the NMI latch can change (R227, R318). -/
theorem cpu_of_dmaStore {s r t : State} {b : Byte} {cycles : Nat} (hread : ReadFrame s r)
    (htime : DotFrame { r.dmaStore b with cycles := cycles } t) :
    t.cpu = { s.cpu with nmiPending := t.cpu.nmiPending } := by
  rw [htime.cpu, ← hread.cpu]
  rfl

/-- OAM after a byte of the transfer and some dots of the PPU: the read before it left OAM and OAMADDR alone (R318). -/
theorem oam_of_dmaStore {s r t : State} {b : Byte} {cycles : Nat} (hread : ReadFrame s r)
    (htime : DotFrame { r.dmaStore b with cycles := cycles } t) :
    t.ppu.oam = s.ppu.oam.write s.ppu.oamAddr.toNat b := by
  rw [htime.ppu, ← hread.oam, ← hread.oamAddr]
  rfl

/-- Settles O52: the engine has the boundary; of the memories the read and the time write none, the stored byte OAM. -/
theorem dmaStallsCpu : Obligations.DmaStallsCpu := by
  intro s hactive haction hpage
  have hstep : step s = s.takeInput.dmaMove s.nextInput := move_dma (nextMove_dma (s := s.takeInput) haction hactive)
  rw [dmaMove_eq (s := s.takeInput) s.nextInput hpage] at hstep
  have hread := afterRead_frame s.takeInput s.takeInput.dma.source
  obtain ⟨cycles, htime⟩ := elapse_frame
    ((s.takeInput.afterRead s.takeInput.dma.source).dmaStore (s.takeInput.readValue s.takeInput.dma.source))
    s.nextInput s.takeInput.dmaCycles
  have hoam := oam_of_dmaStore hread htime
  refine ⟨_, hstep, ?cpu, ?ram, ?wram, ?prg, ?chr, ?nametables, ?palette, ?oamAddr, ?index, ?active, ?stored, ?other⟩
  case cpu => exact cpu_of_dmaStore (s := s.takeInput) hread htime
  case ram => rw [htime.rest]; exact hread.ram
  case wram => rw [htime.rest]; exact hread.wram
  case prg => rw [htime.rest]; exact hread.prg
  case chr => rw [htime.rest]; exact hread.chr
  case nametables => rw [htime.ppu]; exact hread.nametables
  case palette => rw [htime.ppu]; exact hread.palette
  case oamAddr => rw [htime.ppu]; exact congrArg (· + 1) hread.oamAddr
  case index => rw [htime.rest]; exact congrArg (·.index + 1) hread.dma
  case active => rw [htime.rest]; exact congrArg (fun d : Dma => decide (d.index ≠ 0xFF)) hread.dma
  case stored => rw [hoam]; exact Memory.read_write_same _ _ _
  case other => rw [hoam]; exact fun k hk => Memory.read_write_other _ _ hk

end Sys2Proof.Machine

/-! PROOF of O33 to O38. The PPU's registers on the CPU bus: what each access leaves of the PPU, and that it leaves the rest of
the machine but the draw counter and, by a rise of `v` bit 12, the MMC3 (61_ppu.md R263 to R272, R294, 63_mmc3.md R351). -/

namespace Sys2Proof.Machine

theorem memRead_ppuReg (s : State) {a : Addr} {reg : Nat} (h : 0x2000 ≤ a.toNat) (h' : a.toNat < 0x4000)
    (hreg : a.toNat % 8 = reg) : memRead a s = s.readPpuReg reg :=
  hreg ▸ memRead_ppu s h h'

theorem memWrite_ppuReg (s : State) {a : Addr} {reg : Nat} (d : Byte) (h : 0x2000 ≤ a.toNat) (h' : a.toNat < 0x4000)
    (hreg : a.toNat % 8 = reg) : memWrite a d s = s.writePpuReg reg d :=
  hreg ▸ memWrite_ppu s d h h'

/-! ### $2002, $2003 and $2004. -/

/-- The state a read of $2002 leaves (R266, R396). -/
theorem readStatus_state (s : State) : s.readStatus.2 = { s with
    fresh := s.fresh + 1
    ppu := { s.ppu with
      vblank := false, w := false
      vblanksSeen :=
        if s.ppu.vblank = true ∧ s.ppu.vblanksSeen < 2 then s.ppu.vblanksSeen + 1 else s.ppu.vblanksSeen } } := by
  simp only [State.readStatus, Bool.and_eq_true, decide_eq_true_eq]
  rfl

/-- Settles O33: the byte's three flags, the state after the read, and the flags of a second read in that state. -/
theorem statusRead : Obligations.StatusRead := by
  intro s a hlow hhigh hreg
  have hread (u : State) : memRead a u = .ok u.readStatus := memRead_ppuReg u hlow hhigh hreg
  obtain ⟨hvblank, hsprite0, hoverflow⟩ := statusByte_bits s.ppu s.openBus.1
  exact ⟨_, _, hread s, hvblank, hsprite0, hoverflow, readStatus_state s, _, _, hread _,
    (statusByte_bits s.readStatus.2.ppu _).1⟩

/-- OAMADDR stands at the third byte of a sprite, as arithmetic (R268). -/
theorem and_three_eq_two_iff : ∀ b : Byte, b &&& 3 = 2 ↔ b.toNat % 4 = 2 := by decide

/-- Bits 4-2 of a sprite's third byte read as 0 (R268). -/
theorem oamByte_getLsbD (p : Ppu) (bit : Nat) : p.oamByte.getLsbD bit =
    ((p.oam.read p.oamAddr.toNat).getLsbD bit &&
      !(decide (p.oamAddr.toNat % 4 = 2) && decide (2 ≤ bit) && decide (bit ≤ 4))) := by
  have mask : ∀ k < 8, (0xE3 : Byte).getLsbD k = !(decide (2 ≤ k) && decide (k ≤ 4)) := by decide
  simp only [Ppu.oamByte, and_three_eq_two_iff]
  by_cases hattr : p.oamAddr.toNat % 4 = 2
  · simp only [hattr, if_true, decide_true, Bool.true_and, BitVec.getLsbD_and]
    obtain hbit | hbit := Nat.lt_or_ge bit 8
    · rw [mask bit hbit]
    · rw [BitVec.getLsbD_of_ge _ _ hbit, Bool.false_and, Bool.false_and]
  · simp [hattr]

/-- Settles O34: $2003's write, then $2004's two accesses inside and outside `vram_safe`. -/
theorem oamPort : Obligations.OamPort := by
  intro s a d hlow hhigh
  refine ⟨fun hreg => memWrite_ppuReg s d hlow hhigh hreg, fun hreg hsafe => ?safe, fun hreg hclosed => ?refused⟩
  case safe =>
    rw [memWrite_ppuReg s d hlow hhigh hreg, memRead_ppuReg s hlow hhigh hreg]
    exact ⟨⟨_, if_pos hsafe, rfl, fun k => Memory.read_write _ _ _ _⟩, _, if_pos hsafe, oamByte_getLsbD s.ppu⟩
  case refused =>
    rw [memWrite_ppuReg s d hlow hhigh hreg, memRead_ppuReg s hlow hhigh hreg]
    exact ⟨if_neg (Bool.eq_false_iff.mp hclosed), if_neg (Bool.eq_false_iff.mp hclosed)⟩

/-! ### $2000, $2001, $2005 and $2006: the bits each write sets. -/

/-- The bits of `t` after a PPUCTRL write (R263). -/
theorem writeCtrl_t (p : Ppu) (d : Byte) :
    (p.writeCtrl d).t.extractLsb' 10 2 = d.extractLsb' 0 2 ∧
    (p.writeCtrl d).t.extractLsb' 0 10 = p.t.extractLsb' 0 10 ∧
    (p.writeCtrl d).t.extractLsb' 12 3 = p.t.extractLsb' 12 3 := by
  refine ⟨?_, ?_, ?_⟩ <;> ext k hk <;> interval_cases k <;> simp [Ppu.writeCtrl]

/-- The bits of `t` after the first PPUSCROLL write of a pair (R269). -/
theorem writeScroll_first_t {p : Ppu} (d : Byte) (hw : p.w = false) :
    (p.writeScroll d).t.extractLsb' 0 5 = d.extractLsb' 3 5 ∧
    (p.writeScroll d).t.extractLsb' 5 10 = p.t.extractLsb' 5 10 := by
  refine ⟨?_, ?_⟩ <;> ext k hk <;> interval_cases k <;> simp [Ppu.writeScroll, hw]

/-- The bits of `t` after the second PPUSCROLL write of a pair (R269). -/
theorem writeScroll_second_t {p : Ppu} (d : Byte) (hw : p.w = true) :
    (p.writeScroll d).t.extractLsb' 12 3 = d.extractLsb' 0 3 ∧
    (p.writeScroll d).t.extractLsb' 5 5 = d.extractLsb' 3 5 ∧
    (p.writeScroll d).t.extractLsb' 0 5 = p.t.extractLsb' 0 5 ∧
    (p.writeScroll d).t.extractLsb' 10 2 = p.t.extractLsb' 10 2 := by
  refine ⟨?_, ?_, ?_, ?_⟩ <;> ext k hk <;> interval_cases k <;> simp [Ppu.writeScroll, hw]

/-- The bits of `t` after the first PPUADDR write of a pair (R270). -/
theorem writeAddr_first_t {p : Ppu} (d : Byte) (hw : p.w = false) :
    (p.writeAddr d).t.extractLsb' 8 6 = d.extractLsb' 0 6 ∧ (p.writeAddr d).t.getLsbD 14 = false ∧
    (p.writeAddr d).t.extractLsb' 0 8 = p.t.extractLsb' 0 8 := by
  refine ⟨?_, by simp [Ppu.writeAddr, hw], ?_⟩ <;> ext k hk <;> interval_cases k <;> simp [Ppu.writeAddr, hw]

/-- The bits of `t` after the second PPUADDR write of a pair (R270). -/
theorem writeAddr_second_t {p : Ppu} (d : Byte) (hw : p.w = true) :
    (p.writeAddr d).t.extractLsb' 0 8 = d ∧ (p.writeAddr d).t.extractLsb' 8 7 = p.t.extractLsb' 8 7 := by
  refine ⟨?_, ?_⟩ <;> ext k hk <;> interval_cases k <;> simp [Ppu.writeAddr, hw]

/-- The first PPUADDR write of a pair leaves `v` (R270). -/
theorem writeAddr_first_v {p : Ppu} (d : Byte) (hw : p.w = false) : (p.writeAddr d).v = p.v := by
  simp [Ppu.writeAddr, hw]

/-- The second PPUADDR write of a pair copies `t` to `v` (R270). -/
theorem writeAddr_second_v {p : Ppu} (d : Byte) (hw : p.w = true) : (p.writeAddr d).v = (p.writeAddr d).t := by
  simp [Ppu.writeAddr, hw]

theorem writeAddr_w (p : Ppu) (d : Byte) : (p.writeAddr d).w = !p.w := by
  unfold Ppu.writeAddr
  split <;> simp_all

/-- The address a pair of PPUADDR writes leaves in `v`: the low byte is the second, bits 13-8 are the first's, bit 14 is clear
(R270). -/
theorem writeAddr_pair_v {p : Ppu} (h l : Byte) (hw : p.w = false) :
    ((p.writeAddr h).writeAddr l).v.toNat = 256 * (h.toNat % 64) + l.toNat := by
  have hw' : (p.writeAddr h).w = true := by rw [writeAddr_w, hw]; rfl
  obtain ⟨hhigh, h14, -⟩ := writeAddr_first_t h hw
  obtain ⟨hlow, hkept⟩ := writeAddr_second_t l hw'
  rw [writeAddr_second_v l hw']
  rw [← BitVec.testBit_toNat, Nat.testBit_eq_decide_div_mod_eq, decide_eq_false_iff_not] at h14
  rw [← BitVec.toNat_inj] at hhigh hlow hkept
  simp only [BitVec.extractLsb'_toNat, Nat.shiftRight_eq_div_pow] at hhigh hlow hkept
  omega

/-! ### $2000, $2001, $2005 and $2006: whether the write takes effect, and what else it changes. -/

/-- A write of one of the four registers, in warm-up and after: the PPU is the written one and the NMI output has followed,
or in warm-up it is as it was; besides only draws (R396). -/
theorem writeWarm_applied_or_dropped (s : State) {p : Ppu} (hp : Ppu.applyIf true p s.ppu = p) :
    ∃ n, s.writeWarm p = { s.setPpuNmi p with fresh := n } ∨
      (s.ppu.vblanksSeen < 2 ∧ s.writeWarm p = { s with fresh := n }) := by
  obtain ⟨-, h⟩ | ⟨-, h⟩ | ⟨hseen, h⟩ := writeWarm_cases s p
  · exact ⟨s.fresh, .inl h⟩
  · rw [hp] at h
    exact ⟨s.fresh + 1, .inl h⟩
  · exact ⟨s.fresh + 1, .inr ⟨hseen, h⟩⟩

/-- A PPU that differs in what one of the four registers writes, but in neither PPUCTRL nor vblank: such a write leaves the NMI
latch alone. -/
structure QuietWrite (p written : Ppu) : Prop where
  applied : Ppu.applyIf true written p = written
  ctrl : written.ctrl = p.ctrl
  vblank : written.vblank = p.vblank
  vblanksSeen : written.vblanksSeen = p.vblanksSeen

theorem writeMask_quiet (p : Ppu) (d : Byte) : QuietWrite p (p.writeMask d) := ⟨rfl, rfl, rfl, rfl⟩

theorem writeScroll_quiet (p : Ppu) (d : Byte) : QuietWrite p (p.writeScroll d) := by
  unfold Ppu.writeScroll
  split <;> exact ⟨rfl, rfl, rfl, rfl⟩

theorem writeAddr_quiet (p : Ppu) (d : Byte) : QuietWrite p (p.writeAddr d) := by
  unfold Ppu.writeAddr
  split <;> exact ⟨rfl, rfl, rfl, rfl⟩

/-- A write that leaves the NMI output alone changes the PPU and the draw counter, or in warm-up the draw counter only. -/
theorem QuietWrite.writeWarm {s : State} {p : Ppu} (h : QuietWrite s.ppu p) :
    ∃ n, s.writeWarm p = { s with ppu := p, fresh := n } ∨
      (s.ppu.vblanksSeen < 2 ∧ s.writeWarm p = { s with fresh := n }) := by
  obtain ⟨n, happlied | hdropped⟩ := writeWarm_applied_or_dropped s h.applied
  · rw [setPpuNmi_quiet h.ctrl h.vblank] at happlied
    exact ⟨n, .inl happlied⟩
  · exact ⟨n, .inr hdropped⟩

/-- After warm-up the write takes effect, without a draw (R396). -/
theorem QuietWrite.writeWarm_warm {s : State} {p : Ppu} (h : QuietWrite s.ppu p) (hwarm : 2 ≤ s.ppu.vblanksSeen) :
    s.writeWarm p = s.setPpu p := by
  rw [State.writeWarm, if_pos hwarm, setPpuNmi_quiet h.ctrl h.vblank]

/-- What a PPUSCROLL write sets does not depend on the count of vblanks seen, and the count stays (R269, R396). -/
theorem writeScroll_restored (p : Ppu) (d : Byte) (n : Nat) :
    p.writeScroll d = { { p with vblanksSeen := n }.writeScroll d with vblanksSeen := p.vblanksSeen } := by
  cases hw : p.w <;> simp [Ppu.writeScroll, hw]

/-- What a PPUADDR write sets does not depend on the count of vblanks seen, and the count stays (R270, R396). -/
theorem writeAddr_restored (p : Ppu) (d : Byte) (n : Nat) :
    p.writeAddr d = { { p with vblanksSeen := n }.writeAddr d with vblanksSeen := p.vblanksSeen } := by
  cases hw : p.w <;> simp [Ppu.writeAddr, hw]

/-- A PPUSCROLL write changes no VRAM address (R269). -/
theorem writeScroll_v (p : Ppu) (d : Byte) : (p.writeScroll d).v = p.v := by
  unfold Ppu.writeScroll
  split <;> rfl

/-- An access that leaves `v` and the MMC3 alone (R351). -/
theorem a12Effect_of_same {s u : State} (hv : u.ppu.v = s.ppu.v) (hm : u.mmc3 = s.mmc3) : A12Effect s u := by
  unfold A12Effect
  rw [hv, if_neg (by simp)]
  exact hm

/-- After warm-up a $2005 write changes the PPU alone (R269, R396). -/
theorem memWrite_scroll {s : State} {a : Addr} (d : Byte) (hlow : 0x2000 ≤ a.toNat) (hhigh : a.toNat < 0x4000)
    (hreg : a.toNat % 8 = 5) (hwarm : 2 ≤ s.ppu.vblanksSeen) :
    memWrite a d s = .ok (s.setPpu (s.ppu.writeScroll d)) := by
  rw [← (writeScroll_quiet s.ppu d).writeWarm_warm hwarm]
  exact memWrite_ppuReg s d hlow hhigh hreg

/-- After warm-up a $2006 write changes the PPU, and the MMC3 by a rise of `v` bit 12 (R270, R351, R396). -/
theorem memWrite_addr {s : State} {a : Addr} (d : Byte) (hlow : 0x2000 ≤ a.toNat) (hhigh : a.toNat < 0x4000)
    (hreg : a.toNat % 8 = 6) (hwarm : 2 ≤ s.ppu.vblanksSeen) :
    memWrite a d s = .ok ((s.setPpu (s.ppu.writeAddr d)).noteA12 s.ppu.v) := by
  rw [← (writeAddr_quiet s.ppu d).writeWarm_warm hwarm]
  exact memWrite_ppuReg s d hlow hhigh hreg

/-- Settles O35: PPUCTRL with its NMI output, PPUMASK, and the two-write registers beside the same write after warm-up. -/
theorem ppuControlAndMask : Obligations.PpuControlAndMask := by
  intro s a d hlow hhigh
  have hwrite (u : State) {reg : Nat} (hreg : a.toNat % 8 = reg) : memWrite a d u = u.writePpuReg reg d :=
    memWrite_ppuReg u d hlow hhigh hreg
  refine ⟨fun hreg hbit => ?refused, fun hreg hbit => ?ctrl, fun hreg => ?mask, fun hreg => ?pair⟩
  case refused => rw [hwrite s hreg, State.writePpuReg, if_pos hbit]
  case ctrl =>
    refine ⟨_, by rw [hwrite s hreg, State.writePpuReg, if_neg (Bool.eq_false_iff.mp hbit)], ?_⟩
    obtain ⟨n, h | ⟨hseen, h⟩⟩ := writeWarm_applied_or_dropped s (p := s.ppu.writeCtrl d) rfl
    · rw [h]
      obtain ⟨hbase, hrest, hfine⟩ := writeCtrl_t s.ppu d
      exact ⟨rfl, .inl ⟨rfl, congrArg (s.cpu.nmiPending || ·) (nmiLine_writeCtrl_rises s.ppu d),
        hbase, hrest, hfine⟩⟩
    · rw [h]
      exact ⟨rfl, .inr ⟨hseen, rfl, rfl⟩⟩
  case mask =>
    refine ⟨_, hwrite s hreg, ?_⟩
    obtain ⟨n, h | ⟨hseen, h⟩⟩ := (writeMask_quiet s.ppu d).writeWarm
    · rw [h]
      exact ⟨rfl, .inl rfl⟩
    · rw [h]
      exact ⟨rfl, .inr ⟨hseen, rfl⟩⟩
  case pair =>
    obtain hreg | hreg := hreg
    · have hscroll : memWrite a d s = .ok (s.writeWarm (s.ppu.writeScroll d)) := hwrite s hreg
      refine ⟨_, _, hscroll, memWrite_scroll d hlow hhigh hreg (Nat.le_refl 2), ?_⟩
      obtain ⟨n, h | ⟨hseen, h⟩⟩ := (writeScroll_quiet s.ppu d).writeWarm
      · rw [h]
        exact ⟨rfl, a12Effect_of_same (writeScroll_v s.ppu d) rfl, .inl (writeScroll_restored s.ppu d 2)⟩
      · rw [h]
        exact ⟨rfl, a12Effect_of_same rfl rfl, .inr ⟨hseen, rfl, rfl⟩⟩
    · have haddr : memWrite a d s = .ok ((s.writeWarm (s.ppu.writeAddr d)).noteA12 s.ppu.v) := hwrite s hreg
      refine ⟨_, _, haddr, memWrite_addr d hlow hhigh hreg (Nat.le_refl 2), ?_⟩
      obtain ⟨n, h | ⟨hseen, h⟩⟩ := (writeAddr_quiet s.ppu d).writeWarm
      · rw [h]
        exact ⟨rfl, noteA12_effect rfl, .inl (writeAddr_restored s.ppu d 2)⟩
      · rw [h, noteA12_quiet (by simp)]
        exact ⟨rfl, a12Effect_of_same rfl rfl, .inr ⟨hseen, rfl, rfl⟩⟩

/-- The fields of the PPU a $2005 write sets, first and second of a pair (R269). -/
theorem writeScroll_eq (p : Ppu) (d : Byte) :
    (p.w = false → p.writeScroll d = { p with t := (p.writeScroll d).t, fineX := d.extractLsb' 0 3, w := true }) ∧
    (p.w = true → p.writeScroll d = { p with t := (p.writeScroll d).t, w := false }) := by
  have hfine : d.setWidth 3 = d.extractLsb' 0 3 := by
    ext k hk
    simp
  refine ⟨fun hw => ?_, fun hw => ?_⟩ <;> simp [Ppu.writeScroll, hw, hfine]

/-- The fields of the PPU a $2006 write sets, first and second of a pair (R270). -/
theorem writeAddr_eq (p : Ppu) (d : Byte) :
    (p.w = false → p.writeAddr d = { p with t := (p.writeAddr d).t, w := true }) ∧
    (p.w = true → p.writeAddr d = { p with t := (p.writeAddr d).t, v := (p.writeAddr d).t, w := false }) := by
  refine ⟨fun hw => ?_, fun hw => ?_⟩ <;> simp [Ppu.writeAddr, hw]

/-- Settles O36: the two writes of $2005, the two of $2006, and a pair of $2006 writes from its two parts. -/
theorem scrollAndAddressWrites : Obligations.ScrollAndAddressWrites := by
  intro s a d hlow hhigh hseen
  have hwarm : 2 ≤ s.ppu.vblanksSeen := hseen.ge
  refine ⟨fun hreg => ?scroll, fun hreg => ?addr, fun h l hw => ?pair⟩
  case scroll =>
    exact ⟨_, memWrite_scroll d hlow hhigh hreg hwarm, rfl,
      fun hw => ⟨(writeScroll_eq s.ppu d).1 hw, writeScroll_first_t d hw⟩,
      fun hw => ⟨(writeScroll_eq s.ppu d).2 hw, writeScroll_second_t d hw⟩⟩
  case addr =>
    exact ⟨_, memWrite_addr d hlow hhigh hreg hwarm, rfl, noteA12_effect rfl,
      fun hw => ⟨(writeAddr_eq s.ppu d).1 hw, writeAddr_first_t d hw⟩,
      fun hw => ⟨(writeAddr_eq s.ppu d).2 hw, writeAddr_second_t d hw⟩⟩
  case pair =>
    have hfirst := memWrite_addr (s := s) (a := 0x2006) h (by decide) (by decide) (by decide) hwarm
    have hwarm' : 2 ≤ ((s.setPpu (s.ppu.writeAddr h)).noteA12 s.ppu.v).ppu.vblanksSeen :=
      hwarm.trans_eq (writeAddr_quiet s.ppu h).vblanksSeen.symm
    have hw' : ((s.ppu.writeAddr h).writeAddr l).w = false := by rw [writeAddr_w, writeAddr_w, Bool.not_not, hw]
    exact ⟨_, _, hfirst, memWrite_addr l (by decide) (by decide) (by decide) hwarm', writeAddr_pair_v h l hw, hw',
      writeAddr_first_v h hw⟩

/-! ### $2007. -/

/-- A PPU write changes the PPU alone, and of it no register (R276). -/
theorem ppuWrite_state (s : State) (a : PpuAddr) (d : Byte) :
    s.ppuWrite a d = { s with ppu := (s.ppuWrite a d).ppu } := by
  unfold State.ppuWrite
  split
  · rfl
  · split <;> rfl

/-- A $2007 write inside `vram_safe` (R271). -/
theorem writePpuData_safe {s : State} (d : Byte) (hsafe : s.ppu.vramSafe = true) :
    s.writePpuData d = .ok (((s.ppuWrite s.ppu.vramAddr d).setPpu
      { (s.ppuWrite s.ppu.vramAddr d).ppu with v := s.ppu.advanceV }).noteA12 s.ppu.v) :=
  if_pos hsafe

/-- The state a $2007 read below the palette leaves: the buffer refilled, `v` advanced (R272). -/
def State.afterBufferedRead (s : State) : State :=
  (s.setPpu { s.ppu with readBuffer := s.ppuRead s.ppu.vramAddr, v := s.ppu.advanceV }).noteA12 s.ppu.v

/-- A $2007 read below the palette inside `vram_safe` gives the buffer as it was (R272). -/
theorem readPpuData_buffered {s : State} (hsafe : s.ppu.vramSafe = true) (hv : s.ppu.vramAddr.toNat < 0x3F00) :
    s.readPpuData = .ok (s.ppu.readBuffer, s.afterBufferedRead) := by
  rw [State.readPpuData, if_pos hsafe, if_pos hv]
  rfl

/-- A $2007 read of the palette inside `vram_safe` gives the palette's six bits and refills the buffer from the nametable
below (R272, R278). -/
theorem readPpuData_palette {s : State} (hsafe : s.ppu.vramSafe = true) (hv : 0x3F00 ≤ s.ppu.vramAddr.toNat) :
    s.readPpuData = .ok ((s.ppuRead s.ppu.vramAddr &&& 0x3F) ||| (s.openBus.1 &&& 0xC0),
      (s.drawn.setPpu { s.ppu with readBuffer := s.ppuRead (s.ppu.vramAddr - 0x1000), v := s.ppu.advanceV }).noteA12
        s.ppu.v) := by
  rw [State.readPpuData, if_pos hsafe, if_neg (Nat.not_lt.mpr hv)]
  rfl

theorem low_six_bits (x y : Byte) : ((x &&& 0x3F) ||| (y &&& 0xC0)).extractLsb' 0 6 = x.extractLsb' 0 6 := by
  ext k hk
  interval_cases k <;> simp

/-- Settles O37: $2007's two accesses outside `vram_safe` and inside, the read below the palette and in it. -/
theorem vramPort : Obligations.VramPort := by
  intro s a d hlow hhigh hreg address next
  have haddress : s.ppu.vramAddr = address := vramAddr_eq s.ppu
  rw [memWrite_ppuReg s d hlow hhigh hreg, memRead_ppuReg s hlow hhigh hreg]
  refine ⟨fun hclosed => ?refused, fun hsafe => ⟨?write, ?read⟩⟩
  case refused => exact ⟨if_neg (Bool.eq_false_iff.mp hclosed), if_neg (Bool.eq_false_iff.mp hclosed)⟩
  case write =>
    have hstored := ppuWrite_state s address d
    refine ⟨_, writePpuData_safe d hsafe, ?_, ?_, ?_⟩ <;> rw [haddress]
    · rfl
    · rw [hstored]
      rfl
    · have hmmc3 : (s.ppuWrite address d).mmc3 = s.mmc3 := by rw [hstored]
      exact noteA12_effect hmmc3
  case read =>
    obtain hbelow | hpalette := Nat.lt_or_ge s.ppu.vramAddr.toNat 0x3F00
    · refine ⟨_, _, readPpuData_buffered hsafe hbelow, rfl, noteA12_effect rfl, fun _ => ?_, fun h => ?_⟩
      · rw [State.afterBufferedRead, haddress]
        exact ⟨rfl, rfl⟩
      · rw [haddress] at hbelow
        omega
    · refine ⟨_, _, readPpuData_palette hsafe hpalette, rfl, noteA12_effect rfl, fun h => ?_, fun _ => ?_⟩
      · rw [haddress] at hpalette
        omega
      · rw [haddress]
        exact ⟨low_six_bits _ _, rfl⟩

/-- Settles O38: the second of two buffered reads gives the byte with which the first refilled the buffer. -/
theorem readBufferDelay : Obligations.ReadBufferDelay := by
  intro s hsafe step1 hfirst hsecond
  rw [← vramAddr_eq] at hfirst ⊢
  have hread (u : State) : memRead 0x2007 u = u.readPpuData := memRead_ppuReg u (by decide) (by decide) rfl
  have hfirstRead : memRead 0x2007 s = .ok (s.ppu.readBuffer, s.afterBufferedRead) := by
    rw [hread, readPpuData_buffered hsafe hfirst]
  have hsecondRead : memRead 0x2007 s.afterBufferedRead =
      .ok (s.ppuRead s.ppu.vramAddr, s.afterBufferedRead.afterBufferedRead) := by
    have hsecond' : s.afterBufferedRead.ppu.vramAddr.toNat < 0x3F00 := by
      rw [vramAddr_eq]
      exact hsecond
    rw [hread, readPpuData_buffered (s := s.afterBufferedRead) hsafe hsecond']
    rfl
  exact ⟨_, _, _, _, hfirstRead, hsecondRead, rfl, rfl, rfl, rfl⟩

end Sys2Proof.Machine

/-! PROOF of O39. The PPU's own memories behind `PpuRead` and `PpuWrite`: an address names a cell, two addresses name the same
cell exactly where they are mirrors (61_ppu.md R276 to R278). -/

namespace Sys2Proof.Machine

section memories
variable (s : State) {a : PpuAddr}

theorem ppuRead_chr (h : a.toNat < 0x2000) : s.ppuRead a = s.chr.read (s.mmc3.chrOffset a) := if_pos h

theorem ppuRead_nametable (h : 0x2000 ≤ a.toNat) (h' : a.toNat < 0x3F00) :
    s.ppuRead a = s.ppu.nametables.read (nametableIndex s.mmc3.mirroring a) := by
  rw [State.ppuRead, if_neg (by omega), if_pos h']

theorem ppuRead_palette (h : 0x3F00 ≤ a.toNat) : s.ppuRead a = s.ppu.palette.read (paletteIndex a) := by
  rw [State.ppuRead, if_neg (by omega), if_neg (by omega)]

theorem ppuWrite_chr (d : Byte) (h : a.toNat < 0x2000) : s.ppuWrite a d = s := if_pos h

theorem ppuWrite_nametable (d : Byte) (h : 0x2000 ≤ a.toNat) (h' : a.toNat < 0x3F00) :
    s.ppuWrite a d =
      s.setPpu { s.ppu with nametables := s.ppu.nametables.write (nametableIndex s.mmc3.mirroring a) d } := by
  rw [State.ppuWrite, if_neg (by omega), if_pos h']

theorem ppuWrite_palette (d : Byte) (h : 0x3F00 ≤ a.toNat) :
    s.ppuWrite a d = s.setPpu { s.ppu with palette := s.ppu.palette.write (paletteIndex a) (d &&& 0x3F) } := by
  rw [State.ppuWrite, if_neg (by omega), if_neg (by omega)]

end memories

/-- Two nametable addresses name the same byte where physical page and offset agree (R277). -/
theorem nametableIndex_eq_iff (horizontal : Bool) (a b : PpuAddr) :
    nametableIndex horizontal b = nametableIndex horizontal a ↔
      nametablePage horizontal (b.toNat / 0x400 % 4) = nametablePage horizontal (a.toNat / 0x400 % 4) ∧
      b.toNat % 0x400 = a.toNat % 0x400 := by
  unfold nametableIndex
  omega

/-- A nametable write is read back at the addresses of the same byte and nowhere else (R276, R277). -/
theorem ppuRead_ppuWrite_nametable (s : State) {a : PpuAddr} (b : PpuAddr) (d : Byte) (h : 0x2000 ≤ a.toNat)
    (h' : a.toNat < 0x3F00) :
    (s.ppuWrite a d).ppuRead b =
      if 0x2000 ≤ b.toNat ∧ b.toNat < 0x3F00 ∧
        nametableIndex s.mmc3.mirroring b = nametableIndex s.mmc3.mirroring a then d
      else s.ppuRead b := by
  rw [ppuWrite_nametable s d h h']
  by_cases hchr : b.toNat < 0x2000
  · rw [ppuRead_chr _ hchr, ppuRead_chr s hchr, if_neg (by omega)]
    rfl
  by_cases hpal : 0x3F00 ≤ b.toNat
  · rw [ppuRead_palette _ hpal, ppuRead_palette s hpal, if_neg (by omega)]
    rfl
  · rw [ppuRead_nametable _ (by omega) (by omega), ppuRead_nametable s (by omega) (by omega)]
    simp only [Nat.not_lt.mp hchr, Nat.not_le.mp hpal, true_and]
    exact Memory.read_write _ _ _ _

/-- A palette write is read back, its six bits, at the addresses of the same entry and nowhere else (R276, R278). -/
theorem ppuRead_ppuWrite_palette (s : State) {a : PpuAddr} (b : PpuAddr) (d : Byte) (h : 0x3F00 ≤ a.toNat) :
    (s.ppuWrite a d).ppuRead b =
      if 0x3F00 ≤ b.toNat ∧ paletteIndex b = paletteIndex a then d &&& 0x3F else s.ppuRead b := by
  rw [ppuWrite_palette s d h]
  by_cases hchr : b.toNat < 0x2000
  · rw [ppuRead_chr _ hchr, ppuRead_chr s hchr, if_neg (by omega)]
    rfl
  by_cases hpal : 0x3F00 ≤ b.toNat
  · rw [ppuRead_palette _ hpal, ppuRead_palette s hpal]
    simp only [hpal, true_and]
    exact Memory.read_write _ _ _ _
  · rw [ppuRead_nametable _ (by omega) (by omega), ppuRead_nametable s (by omega) (by omega), if_neg (by omega)]
    rfl

/-- Settles O39: one part for each of CHR ROM, the nametables and the palette. -/
theorem ppuMemoryMirrors : Obligations.PpuMemoryMirrors := by
  intro s a b d page entry
  have hpage (x : PpuAddr) : nametablePage s.mmc3.mirroring (x.toNat / 0x400 % 4) = page x := rfl
  have hentry (x : PpuAddr) : paletteIndex x = entry x := paletteIndex_eq x
  refine ⟨fun hchr => ⟨ppuRead_chr s hchr, ppuWrite_chr s d hchr⟩, fun hlow hhigh => ⟨?_, ?_⟩,
    fun hpal => ⟨?_, ?_⟩⟩
  · rw [ppuRead_nametable s hlow hhigh, nametableIndex, hpage]
  · simp only [ppuRead_ppuWrite_nametable s b d hlow hhigh, nametableIndex_eq_iff, hpage]
  · rw [ppuRead_palette s hpal, hentry]
  · rw [ppuRead_ppuWrite_palette s b d hpal, hentry, hentry]

end Sys2Proof.Machine

/-! PROOF of O40, O41 and O46. What a frame of dots does to vblank and the NMI latch, to the sprite flags, and to the MMC3's
counter (61_ppu.md R267, R290, R291, 63_mmc3.md R351). -/

namespace Sys2Proof.Machine

/-- From the first place of the frame, `k` dots on is place `k`, counted modulo the frame's length (R290). -/
theorem ppuRun_place_of_start {s : State} (k : Nat) (hscanline : s.ppu.scanline = 0) (hdot : s.ppu.dot = 0) :
    (State.ppuRun k s).ppu.scanline * 341 + (State.ppuRun k s).ppu.dot = k % 89342 ∧ (State.ppuRun k s).ppu.dot < 341 := by
  obtain ⟨-, hdot', hplace⟩ := ppuRun_inside k (s := s) (by omega) (by omega)
  simp only [Ppu.place, hscanline, hdot] at hplace
  exact ⟨by omega, hdot'⟩

/-- `k` dots on from the first place of the frame the PPU is at a place exactly where `k` is that place's number (R290). -/
theorem ppuRun_at_iff {s : State} (k : Nat) (hscanline : s.ppu.scanline = 0) (hdot : s.ppu.dot = 0) {scanline dot : Nat}
    (hin : dot < 341) :
    ((State.ppuRun k s).ppu.scanline = scanline ∧ (State.ppuRun k s).ppu.dot = dot) ↔
      k % 89342 = scanline * 341 + dot := by
  obtain ⟨hplace, hdot'⟩ := ppuRun_place_of_start k hscanline hdot
  omega

/-- VBlank and the NMI latch over a frame from its first place: the NMI output rises once, at (241, 1) (R227, R291). -/
theorem ppuRun_vblank_nmi {s : State} (hscanline : s.ppu.scanline = 0) (hdot : s.ppu.dot = 0)
    (hctrl : s.ppu.ctrl.getLsbD 7 = true) (hvblank : s.ppu.vblank = false) (hnmi : s.cpu.nmiPending = false) {k : Nat}
    (hk : k ≤ 89342) :
    (State.ppuRun k s).ppu.vblank = decide (82182 ≤ k ∧ k < 89002) ∧
      (State.ppuRun k s).cpu.nmiPending = decide (82182 ≤ k) := by
  induction k with
  | zero => exact ⟨hvblank, hnmi⟩
  | succ k ih =>
    obtain ⟨hv, hn⟩ := ih (by omega)
    have hset := ppuRun_at_iff (k + 1) hscanline hdot (scanline := 241) (dot := 1) (by decide)
    have hclear := ppuRun_at_iff (k + 1) hscanline hdot (scanline := 261) (dot := 1) (by decide)
    rw [ppuRun_succ] at hset hclear
    rw [ppuRun_succ, ppuDot_vblank, ppuDot_nmiPending, (ppuRun_registers k s).1, hctrl, hv, hn]
    simp only [hset, hclear]
    constructor
    · split
      · exact (decide_eq_true (by omega)).symm
      · split
        · exact (decide_eq_false (by omega)).symm
        · exact decide_eq_decide.mpr (by omega)
    · rw [Bool.and_true, ← decide_not, ← Bool.decide_and, ← Bool.decide_or]
      exact decide_eq_decide.mpr (by omega)

/-- Settles O40: the place by `ppuRun_inside`, vblank and the latch by induction over the frame's dots. -/
theorem framePositionAndNmi : Obligations.FramePositionAndNmi := by
  refine ⟨fun s k hscanline hdot => ?place, fun s k hscanline hdot hctrl hvblank hnmi hk =>
    ppuRun_vblank_nmi hscanline hdot hctrl hvblank hnmi hk⟩
  obtain ⟨-, hdot', hplace⟩ := ppuRun_inside k hscanline hdot
  exact ⟨hplace, hdot'⟩

/-! ### The sprite flags. -/

theorem frameEvent_sprites (s : State) :
    (s.frameEvent.ppu.sprite0Hit, s.frameEvent.ppu.spriteOverflow) =
      if s.ppu.scanline = 261 ∧ s.ppu.dot = 1 then (false, false) else (s.ppu.sprite0Hit, s.ppu.spriteOverflow) := by
  unfold State.frameEvent
  split
  · rw [if_neg (by omega)]
    rfl
  · split <;> rfl

/-- Each sprite flag may rise while rendering scanlines 0 to 239, and stays where it is set (R267). -/
theorem spriteEvent_sprites (s : State) : ∃ hit overflow : Bool,
    (hit = true ∨ overflow = true → s.ppu.rendering = true ∧ s.ppu.scanline ≤ 239) ∧
    s.spriteEvent.ppu.sprite0Hit = (s.ppu.sprite0Hit || hit) ∧
    s.spriteEvent.ppu.spriteOverflow = (s.ppu.spriteOverflow || overflow) := by
  unfold State.spriteEvent
  split
  · next h => exact ⟨_, _, fun _ => h, rfl, rfl⟩
  · exact ⟨false, false, by simp, by simp, by simp⟩

theorem ppuRun_rendering (k : Nat) (s : State) : (State.ppuRun k s).ppu.rendering = s.ppu.rendering := by
  rw [Ppu.rendering, (ppuRun_registers k s).2]
  rfl

theorem ppuRun_standardPatterns (k : Nat) (s : State) :
    (State.ppuRun k s).ppu.standardPatterns = s.ppu.standardPatterns := by
  rw [Ppu.standardPatterns, (ppuRun_registers k s).1]
  rfl

theorem nextPosition_sprites (p : Ppu) :
    p.nextPosition.sprite0Hit = p.sprite0Hit ∧ p.nextPosition.spriteOverflow = p.spriteOverflow := by
  unfold Ppu.nextPosition
  split <;> exact ⟨rfl, rfl⟩

/-- All a dot does to the sprite flags: cleared on reaching (261, 1), elsewhere kept or raised (R267, R291). -/
theorem ppuDot_sprites (s : State) : ∃ hit overflow : Bool,
    (hit = true ∨ overflow = true → s.ppu.rendering = true ∧ s.ppuDot.ppu.scanline ≤ 239) ∧
    (s.ppuDot.ppu.sprite0Hit, s.ppuDot.ppu.spriteOverflow) =
      if s.ppuDot.ppu.scanline = 261 ∧ s.ppuDot.ppu.dot = 1 then (false, false)
      else (s.ppu.sprite0Hit || hit, s.ppu.spriteOverflow || overflow) := by
  have hmask : (s.setPpu s.ppu.nextPosition).frameEvent.ppu.mask = s.ppu.mask := by
    rw [((nextPosition_frame s).trans (frameEvent_frame _)).ppu]
  obtain ⟨hit, overflow, hrise, hhit, hoverflow⟩ := spriteEvent_sprites (s.setPpu s.ppu.nextPosition).frameEvent
  have hflags := frameEvent_sprites (s.setPpu s.ppu.nextPosition)
  rw [(frameEvent_place _).1, Ppu.rendering, hmask, State.setPpu_ppu] at hrise
  rw [State.setPpu_ppu, (nextPosition_sprites _).1, (nextPosition_sprites _).2] at hflags
  refine ⟨hit, overflow, by rwa [(ppuDot_place s).1], ?_⟩
  rw [(ppuDot_place s).1, (ppuDot_place s).2, State.ppuDot, scanlineClock_ppu, hhit, hoverflow]
  split at hflags
  · next hclear =>
    have hnoRise : ¬(hit = true ∨ overflow = true) := fun h => by
      obtain ⟨-, hline⟩ := hrise h
      omega
    obtain ⟨rfl, rfl⟩ : hit = false ∧ overflow = false := by
      rwa [not_or, Bool.not_eq_true, Bool.not_eq_true] at hnoRise
    obtain ⟨hcleared, hcleared'⟩ := Prod.mk.inj hflags
    rw [if_pos hclear, hcleared, hcleared']
    rfl
  · next hkeep =>
    obtain ⟨hkept, hkept'⟩ := Prod.mk.inj hflags
    rw [if_neg hkeep, hkept, hkept']

/-- A sprite flag that a dot sets, it sets while rendering a scanline 0 to 239 (R267). -/
theorem ppuDot_sprites_rise (s : State) :
    (s.ppuDot.ppu.sprite0Hit = true →
      s.ppu.sprite0Hit = true ∨ (s.ppu.rendering = true ∧ s.ppuDot.ppu.scanline ≤ 239)) ∧
    (s.ppuDot.ppu.spriteOverflow = true →
      s.ppu.spriteOverflow = true ∨ (s.ppu.rendering = true ∧ s.ppuDot.ppu.scanline ≤ 239)) := by
  obtain ⟨hit, overflow, hrise, hflags⟩ := ppuDot_sprites s
  split at hflags <;> obtain ⟨hhit, hoverflow⟩ := Prod.mk.inj hflags <;> rw [hhit, hoverflow]
  · exact ⟨nofun, nofun⟩
  · exact ⟨fun h => (Bool.or_eq_true_iff.mp h).imp_right fun h => hrise (.inl h),
      fun h => (Bool.or_eq_true_iff.mp h).imp_right fun h => hrise (.inr h)⟩

/-- A sprite flag falls on reaching (261, 1) and nowhere else (R267, R291). -/
theorem ppuDot_sprites_stay {s : State} (hn : ¬(s.ppuDot.ppu.scanline = 261 ∧ s.ppuDot.ppu.dot = 1)) :
    (s.ppu.sprite0Hit = true → s.ppuDot.ppu.sprite0Hit = true) ∧
      (s.ppu.spriteOverflow = true → s.ppuDot.ppu.spriteOverflow = true) := by
  obtain ⟨hit, overflow, -, hflags⟩ := ppuDot_sprites s
  rw [if_neg hn] at hflags
  obtain ⟨hhit, hoverflow⟩ := Prod.mk.inj hflags
  rw [hhit, hoverflow]
  exact ⟨fun h => by rw [h, Bool.true_or], fun h => by rw [h, Bool.true_or]⟩

theorem ppuDot_sprites_clear {s : State} (h : s.ppuDot.ppu.scanline = 261) (h' : s.ppuDot.ppu.dot = 1) :
    s.ppuDot.ppu.sprite0Hit = false ∧ s.ppuDot.ppu.spriteOverflow = false := by
  obtain ⟨hit, overflow, -, hflags⟩ := ppuDot_sprites s
  rw [if_pos ⟨h, h'⟩] at hflags
  exact Prod.mk.inj hflags

/-- With rendering off no number of dots sets a sprite flag (R267). -/
theorem ppuRun_sprites_off (k : Nat) {s : State} (hoff : s.ppu.rendering = false) :
    ((State.ppuRun k s).ppu.sprite0Hit = true → s.ppu.sprite0Hit = true) ∧
      ((State.ppuRun k s).ppu.spriteOverflow = true → s.ppu.spriteOverflow = true) := by
  induction k with
  | zero => exact ⟨id, id⟩
  | succ k ih =>
    obtain ⟨hhit, hoverflow⟩ := ppuDot_sprites_rise (State.ppuRun k s)
    rw [ppuRun_rendering, hoff] at hhit hoverflow
    rw [ppuRun_succ]
    exact ⟨fun h => ih.1 ((hhit h).resolve_right nofun), fun h => ih.2 ((hoverflow h).resolve_right nofun)⟩

/-- Settles O41: where one dot can set, keep and clear a flag, and by induction any number of dots with rendering off. -/
theorem spriteFlagsBounded : Obligations.SpriteFlagsBounded := by
  refine ⟨fun s => ?dot, fun s k hoff => ppuRun_sprites_off k hoff⟩
  obtain ⟨hhit, hoverflow⟩ := ppuDot_sprites_rise s
  exact ⟨hhit, hoverflow, ppuDot_sprites_stay, ppuDot_sprites_clear⟩

/-! ### The MMC3's clocks. -/

theorem clockTimes_succ (n : Nat) (m : Mmc3) : Mmc3.clockTimes (n + 1) m = (Mmc3.clockTimes n m).clock := by
  induction n generalizing m with
  | zero => rfl
  | succ n ih => exact ih m.clock

/-- How many of the first `k` dots of a frame reach dot 260 of scanlines 0-239 and 261 (R351). -/
def clocksWithin (k : Nat) : Nat := min ((k + 81) / 341) 240 + (k + 81) / (262 * 341)

/-- The next dot reaches dot 260 of such a scanline, or the number stays. -/
theorem clocksWithin_succ {k scanline dot : Nat} (hk : k + 1 ≤ 89342) (hplace : scanline * 341 + dot = (k + 1) % 89342)
    (hdot : dot < 341) :
    clocksWithin (k + 1) =
      if dot = 260 ∧ (scanline ≤ 239 ∨ scanline = 261) then clocksWithin k + 1 else clocksWithin k := by
  unfold clocksWithin
  split <;> omega

/-- The MMC3 over a frame of the standard configuration from its first place (R351). -/
theorem ppuRun_mmc3_standard {s : State} (hon : s.ppu.rendering = true) (hstd : s.ppu.standardPatterns = true)
    (hscanline : s.ppu.scanline = 0) (hdot : s.ppu.dot = 0) {k : Nat} (hk : k ≤ 89342) :
    (State.ppuRun k s).mmc3 = Mmc3.clockTimes (clocksWithin k) s.mmc3 := by
  induction k with
  | zero => rfl
  | succ k ih =>
    obtain ⟨hplace, hdot'⟩ := ppuRun_place_of_start (k + 1) hscanline hdot
    rw [clocksWithin_succ hk hplace hdot', ppuRun_succ,
      ppuDot_mmc3_standard ((ppuRun_rendering k s).trans hon) ((ppuRun_standardPatterns k s).trans hstd),
      ih (by omega)]
    split
    · rw [clockTimes_succ]
    · rfl

/-- With rendering off no number of dots clocks the MMC3 (R291). -/
theorem ppuRun_mmc3_off (k : Nat) {s : State} (hoff : s.ppu.rendering = false) : (State.ppuRun k s).mmc3 = s.mmc3 := by
  induction k with
  | zero => rfl
  | succ k ih => rw [ppuRun_succ, ppuDot_mmc3_off ((ppuRun_rendering k s).trans hoff), ih]

/-- Settles O46: one dot by `ppuDot_mmc3_standard`, the frame by counting its clocks, rendering off by induction. -/
theorem clocksPerFrame : Obligations.ClocksPerFrame :=
  ⟨fun _ hon hstd => ⟨ppuDot_mmc3_standard hon hstd, fun hscanline hdot =>
      ppuRun_mmc3_standard hon hstd hscanline hdot (Nat.le_refl 89342)⟩,
    fun _ k hoff => ppuRun_mmc3_off k hoff⟩

end Sys2Proof.Machine

/-! PROOF of O48. The APU's registers on the CPU bus: each write goes into the history and changes at most the facts that gate
`apu_irq` (62_apu_io.md R311 to R316). -/

namespace Sys2Proof.Machine

/-- A write of $4000-$4013 is a sink, but that $4010 with bit 7 enables the DMC IRQ (R311, R312). -/
theorem writeIo_channel (s : State) {address : Nat} (d : Byte) (h : address ≤ 0x4013) :
    s.writeIo address d = .ok (s.setApu (s.apu.writeChannel address d)) := if_pos h

/-- Settles O48: the channels, $4015 with bit 4 and without, and $4017. -/
theorem apuRegisterWrites : Obligations.ApuRegisterWrites := by
  intro s a d
  have hstatus : memWrite 0x4015 d s = s.writeIo 0x4015 d := memWrite_io s d (by decide) (by decide)
  have hframe : memWrite 0x4017 d s = s.writeIo 0x4017 d := memWrite_io s d (by decide) (by decide)
  refine ⟨fun hlow hhigh => ?channel, fun hbit => ?playback, fun hbit => ?enable, ?frame⟩
  case channel => rw [memWrite_io s d hlow (by omega), writeIo_channel s d hhigh]; rfl
  case playback => rw [hstatus]; exact if_pos hbit
  case enable => rw [hstatus]; exact if_neg (Bool.eq_false_iff.mp hbit)
  case frame =>
    have hflag : (s.apu.frameIrq && !d.getLsbD 6) = if d.getLsbD 6 then false else s.apu.frameIrq := by
      cases d.getLsbD 6 <;> simp
    rw [hframe, ← hflag]
    rfl

end Sys2Proof.Machine

/-! PROOF of O50. A read of a controller port with the strobe low shifts its register by one, so that the n-th read shows bit n
of what the register held when the strobe fell (62_apu_io.md R321, R322). -/

namespace Sys2Proof.Machine

/-- A shift moves each bit one place down, and a 1 enters at bit 7 (R322). -/
theorem padShift_getLsbD (shift : Byte) {k : Nat} (hk : k < 8) :
    (padShift shift).getLsbD k = if k < 7 then shift.getLsbD (k + 1) else true := by
  revert k
  revert shift
  decide

/-- After `n` shifts a place shows the bit `n` places above it, and a 1 where there is none (R322). -/
theorem padShift_iterate_getLsbD (n : Nat) (shift : Byte) {k : Nat} (hk : k < 8) :
    (padShift^[n] shift).getLsbD k = if n + k < 8 then shift.getLsbD (n + k) else true := by
  induction n generalizing k with
  | zero => simp [hk]
  | succ n ih =>
    rw [Function.iterate_succ_apply', padShift_getLsbD _ hk]
    split
    · rw [ih (by omega), show n + (k + 1) = n + 1 + k by omega]
    · rw [if_neg (by omega)]

/-- The two controller ports. -/
inductive Port where
  | one
  | two

/-- The address a port is read at (R322). -/
def Port.address : Port → Addr
  | .one => 0x4016
  | .two => 0x4017

/-- The port's serial register (R322). -/
def Port.shift (pads : Pads) : Port → Byte
  | .one => pads.shift1
  | .two => pads.shift2

/-- The ports with one serial register replaced. -/
def Port.setShift (pads : Pads) (v : Byte) : Port → Pads
  | .one => { pads with shift1 := v }
  | .two => { pads with shift2 := v }

/-- The buttons the host holds on the port's controller (R322). -/
def Port.buttons (pads : Pads) : Port → Byte
  | .one => pads.buttons1
  | .two => pads.buttons2

theorem memRead_port (port : Port) (s : State) : memRead port.address s = .ok (s.readIo port.address.toNat) := by
  cases port <;> exact memRead_io s (by decide) (by decide)

/-- With the strobe high a port gives its A button, and the read is a draw (R322). -/
theorem memRead_port_high (port : Port) {s : State} (hstrobe : s.pads.strobe = true) :
    memRead port.address s =
      .ok (padByte s.pads.standard ((port.buttons s.pads).getLsbD 0) (Config.openBus s.fresh), s.drawn) := by
  rw [memRead_port]
  cases port <;> exact congrArg Except.ok (if_pos hstrobe)

/-- With the strobe low a port gives bit 0 of its serial register and shifts it (R322). -/
theorem memRead_port_low (port : Port) {s : State} (hstrobe : s.pads.strobe = false) :
    memRead port.address s =
      .ok (padByte s.pads.standard ((port.shift s.pads).getLsbD 0) (Config.openBus s.fresh),
        s.drawn.setPads (port.setShift s.pads (padShift (port.shift s.pads)))) := by
  rw [memRead_port]
  cases port <;> exact congrArg Except.ok (if_neg (Bool.eq_false_iff.mp hstrobe))

/-- The state after `n` reads of a port with the strobe low: its register shifted `n` times, `n` free values drawn. -/
def State.padRead (s : State) (port : Port) (n : Nat) : State :=
  { s with fresh := s.fresh + n, pads := port.setShift s.pads (padShift^[n] (port.shift s.pads)) }

theorem padRead_strobe (s : State) (port : Port) (n : Nat) : (s.padRead port n).pads.strobe = s.pads.strobe := by
  cases port <;> rfl

theorem padRead_standard (s : State) (port : Port) (n : Nat) : (s.padRead port n).pads.standard = s.pads.standard := by
  cases port <;> rfl

theorem padRead_shift (s : State) (port : Port) (n : Nat) :
    port.shift (s.padRead port n).pads = padShift^[n] (port.shift s.pads) := by
  cases port <;> rfl

/-- One read more (R322). -/
theorem padRead_succ (s : State) (port : Port) (n : Nat) :
    s.padRead port (n + 1) =
      (s.padRead port n).drawn.setPads
        (port.setShift (s.padRead port n).pads (padShift (port.shift (s.padRead port n).pads))) := by
  rw [padRead_shift, State.padRead, Function.iterate_succ_apply' padShift]
  cases port <;> rfl

theorem afterRead_port_iterate (port : Port) (n : Nat) {s : State} (hstrobe : s.pads.strobe = false) :
    (fun u : State => u.afterRead port.address)^[n] s = s.padRead port n := by
  induction n with
  | zero => cases port <;> rfl
  | succ n ih =>
    have hlow : (s.padRead port n).pads.strobe = false := (padRead_strobe s port n).trans hstrobe
    rw [Function.iterate_succ_apply', ih, padRead_succ]
    simp only [State.afterRead, memRead_port_low port hlow]

/-- Bit 0 of the `n`-th read from 0: bit `n` of the register, then ones (R322). -/
theorem readValue_padRead_bit (port : Port) (n : Nat) {s : State} (hstrobe : s.pads.strobe = false) :
    ((s.padRead port n).readValue port.address).getLsbD 0 =
      if n < 8 then (port.shift s.pads).getLsbD n else true := by
  have hlow : (s.padRead port n).pads.strobe = false := (padRead_strobe s port n).trans hstrobe
  simp only [State.readValue, memRead_port_low port hlow]
  rw [(padByte_bits _ _ _).1, padRead_shift, padShift_iterate_getLsbD n _ (by decide)]
  rfl

/-- The bits above it: a draw of the read's own, but zeros in bits 4-1 with standard controllers (R322, U4). -/
theorem readValue_padRead_upper (port : Port) (n : Nat) {s : State} (hstrobe : s.pads.strobe = false) :
    ((s.padRead port n).readValue port.address).extractLsb' 5 3 = (Config.openBus (s.fresh + n)).extractLsb' 5 3 ∧
    ((s.padRead port n).readValue port.address).extractLsb' 1 4 =
      if s.pads.standard then 0 else (Config.openBus (s.fresh + n)).extractLsb' 1 4 := by
  have hlow : (s.padRead port n).pads.strobe = false := (padRead_strobe s port n).trans hstrobe
  simp only [State.readValue, memRead_port_low port hlow]
  rw [(padByte_bits _ _ _).2.1, (padByte_bits _ _ _).2.2, padRead_standard]
  exact ⟨rfl, rfl⟩

/-- With the strobe high a read gives the A button and is a draw (R322). -/
theorem read_port_high (port : Port) {s : State} (hstrobe : s.pads.strobe = true) :
    (s.readValue port.address).getLsbD 0 = (port.buttons s.pads).getLsbD 0 ∧ s.afterRead port.address = s.drawn := by
  simp only [State.readValue, State.afterRead, memRead_port_high port hstrobe]
  exact ⟨(padByte_bits _ _ _).1, trivial⟩

/-- The ports after writes of 1 and 0 to $4016: the strobe has fallen over the buttons (R321). -/
def Pads.strobed (p : Pads) : Pads := { p with strobe := false, shift1 := p.buttons1, shift2 := p.buttons2 }

theorem memWrite_strobe (s : State) (d : Byte) : memWrite 0x4016 d s = .ok (s.setPads (s.pads.writeStrobe d)) :=
  memWrite_io s (a := 0x4016) d (by decide) (by decide)

/-- Writing 1 raises the strobe and loads no register (R321). -/
theorem writeStrobe_one (p : Pads) : p.writeStrobe 0x01 = { p with strobe := true } := by
  unfold Pads.writeStrobe
  rw [if_neg (by simp)]
  rfl

/-- Settles O50: a port with the strobe high, then both ports after the strobe has fallen. -/
theorem controllerProtocol : Obligations.ControllerProtocol := by
  unfold Obligations.ControllerProtocol
  intro read s n upper
  have hfallen : memWrite 0x4016 0x00 (s.setPads { s.pads with strobe := true }) = .ok (s.setPads s.pads.strobed) := by
    rw [memWrite_strobe]
    rfl
  have hone : (read 0x4016)^[n] (s.setPads s.pads.strobed) = (s.setPads s.pads.strobed).padRead .one n :=
    afterRead_port_iterate .one n rfl
  have htwo : (read 0x4017)^[n] (s.setPads s.pads.strobed) = (s.setPads s.pads.strobed).padRead .two n :=
    afterRead_port_iterate .two n rfl
  refine ⟨fun hstrobe => ?high, ⟨_, _, by rw [memWrite_strobe, writeStrobe_one], rfl, hfallen, ?_⟩⟩
  case high =>
    obtain ⟨hbit1, hstate1⟩ := read_port_high .one hstrobe
    obtain ⟨hbit2, hstate2⟩ := read_port_high .two hstrobe
    exact ⟨hbit1, hbit2, hstate1, hstate2⟩
  rw [hone, htwo]
  exact ⟨readValue_padRead_bit .one n rfl, readValue_padRead_bit .two n rfl, readValue_padRead_upper .one n rfl,
    readValue_padRead_upper .two n rfl, rfl, rfl⟩

end Sys2Proof.Machine

/-! PROOF of O51. The OAM DMA engine from its start by a $4014 write, through the 256 bytes of a page of plain memory, with the
time they take (62_apu_io.md R318, 70_reset_and_hazards.md R401, R415). -/

namespace Sys2Proof.Machine

/-! ### The start. -/

theorem memWrite_startDma (s : State) (d : Byte) : memWrite 0x4014 d s = s.startDma d :=
  memWrite_io s (a := 0x4014) d (by decide) (by decide)

theorem dmaPageRefused_iff (d : Byte) : dmaPageRefused d = true ↔ 0x20 ≤ d.toNat ∧ d.toNat ≤ 0x5F := by
  rw [dmaPageRefused, Bool.and_eq_true, decide_eq_true_eq, decide_eq_true_eq]

/-- A device page is refused (R318). -/
theorem startDma_device (s : State) {d : Byte} (h : dmaPageRefused d = true) :
    s.startDma d = .error (.dmaFromDevice d) :=
  if_pos h

/-- Any page is refused outside `vram_safe` (R401). -/
theorem startDma_closed {s : State} {d : Byte} (h : ¬dmaPageRefused d = true) (hclosed : s.ppu.vramSafe = false) :
    s.startDma d = .error .dmaUnsafe := by
  rw [State.startDma, if_neg h, if_neg (Bool.eq_false_iff.mp hclosed)]

/-- Elsewhere the write starts the engine (R318). -/
theorem startDma_safe {s : State} {d : Byte} (h : ¬dmaPageRefused d = true) (hsafe : s.ppu.vramSafe = true) :
    s.startDma d = .ok (s.setDma { active := true, page := d, index := 0 }) := by
  rw [State.startDma, if_neg h, if_pos hsafe]

/-! ### The transfer. -/

/-- The regions of the bus are whole pages (R41). -/
theorem plain_iff_page (s : State) (a : Addr) :
    s.plain a = true ↔
      (a.toNat / 256 < 0x20 ∨ (0x60 ≤ a.toNat / 256 ∧ a.toNat / 256 < 0x80) ∧ s.mmc3.wramEnabled = true) ∨
        0x80 ≤ a.toNat / 256 := by
  have hram : a.toNat < 0x2000 ↔ a.toNat / 256 < 0x20 := by omega
  have hwram : 0x6000 ≤ a.toNat ↔ 0x60 ≤ a.toNat / 256 := by omega
  have hbelow : a.toNat < 0x8000 ↔ a.toNat / 256 < 0x80 := by omega
  have hrom : 0x8000 ≤ a.toNat ↔ 0x80 ≤ a.toNat / 256 := by omega
  simp only [State.plain, Bool.or_eq_true, Bool.and_eq_true, decide_eq_true_eq, hram, hwram, hbelow, hrom]

theorem wordOf_page (i d : Byte) : (wordOf i d).toNat / 256 = d.toNat := by
  have hi := i.isLt
  rw [wordOf_toNat]
  omega

/-- A page is plain memory as a whole or not at all (R41). -/
theorem plain_page {s : State} {d : Byte} (h : s.plain (wordOf 0x00 d) = true) (i : Byte) :
    s.plain (wordOf i d) = true := by
  rw [plain_iff_page, wordOf_page] at h ⊢
  exact h

/-- A byte of the transfer from plain memory (R318). -/
theorem dmaStep_plain {s : State} (h : s.plain s.dma.source = true) :
    s.dmaStep = .ok (s.dmaStore (s.plainByte s.dma.source)) := by
  simp only [State.dmaStep, memRead_plain h]

/-- A transfer of one byte more. -/
theorem dmaStepsFrom_succ_of_eq_some {k : Nat} {s u v : State} (h : dmaStepsFrom k s = some u) (h' : u.dmaStep = .ok v) :
    dmaStepsFrom (k + 1) s = some v := by
  induction k generalizing s with
  | zero =>
    cases h
    simp only [dmaStepsFrom, h']
  | succ k ih =>
    rw [dmaStepsFrom] at h ⊢
    split at h
    · exact ih h
    · cases h

/-- The state in the middle of a transfer: `k` bytes of page `d` are copied, to OAM from the start's OAMADDR on, and nothing
else has changed since the start `s` but the engine's own registers (R318). -/
structure DmaCopied (s : State) (d : Byte) (k : Nat) (u : State) : Prop where
  rest : u = { s with
    ppu := { s.ppu with oam := u.ppu.oam, oamAddr := s.ppu.oamAddr + BitVec.ofNat 8 k }
    dma := { active := decide (k < 256), page := d, index := BitVec.ofNat 8 k } }
  copied : ∀ i : Byte, i.toNat < k → u.ppu.oam.read (s.ppu.oamAddr + i).toNat = s.plainByte (wordOf i d)

/-- The start of the transfer. -/
theorem DmaCopied.start (s : State) (d : Byte) : DmaCopied s d 0 (s.setDma { active := true, page := d, index := 0 }) where
  rest := by simp [State.setDma]
  copied i h := absurd h i.toNat.not_lt_zero

/-- The next byte of the transfer (R318). -/
theorem DmaCopied.step {s u : State} {d : Byte} {k : Nat} (h : DmaCopied s d k u) (hk : k < 256)
    (hpage : s.plain (wordOf 0x00 d) = true) : ∃ v, u.dmaStep = .ok v ∧ DmaCopied s d (k + 1) v := by
  obtain ⟨hrest, hcopied⟩ := h
  have hplain : u.plain u.dma.source = true := by
    rw [hrest]
    exact plain_page hpage (BitVec.ofNat 8 k)
  have hbyte : u.plainByte u.dma.source = s.plainByte (wordOf (BitVec.ofNat 8 k) d) := by
    rw [hrest]
    rfl
  have hlast : decide (BitVec.ofNat 8 k ≠ 0xFF) = decide (k + 1 < 256) := by
    rw [decide_eq_decide, Ne, ← BitVec.toNat_inj, BitVec.toNat_ofNat, show (0xFF : Byte).toNat = 255 from rfl]
    omega
  have hoam : (u.dmaStore (u.plainByte u.dma.source)).ppu.oam =
      u.ppu.oam.write (s.ppu.oamAddr + BitVec.ofNat 8 k).toNat (s.plainByte (wordOf (BitVec.ofNat 8 k) d)) := by
    rw [hbyte, hrest]
    rfl
  refine ⟨_, dmaStep_plain hplain, ?rest, fun i hi => ?copied⟩
  case rest =>
    rw [← hlast, BitVec.ofNat_add, ← BitVec.add_assoc, hrest]
    rfl
  case copied =>
    have hcell : (s.ppu.oamAddr + i).toNat = (s.ppu.oamAddr + BitVec.ofNat 8 k).toNat ↔ i.toNat = k := by
      rw [BitVec.toNat_inj, BitVec.add_right_inj, ← BitVec.toNat_inj, BitVec.toNat_ofNat, Nat.mod_eq_of_lt hk]
    rw [hoam, Memory.read_write]
    split
    · next he =>
      rw [← BitVec.eq_of_toNat_eq ((hcell.mp he).trans (Nat.mod_eq_of_lt hk).symm : i.toNat = (BitVec.ofNat 8 k).toNat)]
    · next hne => exact hcopied i (by omega)

/-- Any number of bytes of the transfer, up to the whole page (R318). -/
theorem dmaStepsFrom_copied {s : State} {d : Byte} (hpage : s.plain (wordOf 0x00 d) = true) {k : Nat} (hk : k ≤ 256) :
    ∃ u, dmaStepsFrom k (s.setDma { active := true, page := d, index := 0 }) = some u ∧ DmaCopied s d k u := by
  induction k with
  | zero => exact ⟨_, rfl, .start s d⟩
  | succ k ih =>
    obtain ⟨u, hu, hcopied⟩ := ih (by omega)
    obtain ⟨v, hv, hcopied'⟩ := hcopied.step (by omega) hpage
    exact ⟨v, dmaStepsFrom_succ_of_eq_some hu hv, hcopied'⟩

/-! ### The time. -/

/-- Timed, a step's time goes on the cycle counter (R417). -/
theorem elapse_cycles {s : State} (inp : HostInput) (n : Nat) (htimed : s.timed = true) :
    (s.elapse inp n).cycles = s.cycles + n := by
  rw [State.elapse, if_pos htimed, (ppuRun_frame _ _).rest]

/-- Timed, a byte of the transfer takes the engine's cycles: the bus read takes none of its own (R415). -/
theorem dmaMove_cycles {u v : State} {inp : HostInput} (htimed : u.timed = true) (h : u.dmaMove inp = .next v) :
    v.cycles = u.cycles + u.dmaCycles := by
  unfold State.dmaMove State.dmaStep at h
  split at h
  · cases h
  next hstep =>
    cases h
    split at hstep <;> cases hstep
    next b w hread =>
      have hframe := memRead_frame hread
      have htimed' : (w.dmaStore b).timed = true := hframe.timed.trans htimed
      exact (elapse_cycles inp _ htimed').trans (congrArg (· + u.dmaCycles) hframe.cycles)

/-- Settles O51: the refusals, the start and the transfer after it, and the time of each byte. -/
theorem oamDmaCopiesPage : Obligations.OamDmaCopiesPage := by
  intro s d
  simp only [memWrite_startDma, ← dmaPageRefused_iff]
  refine ⟨fun hlow hhigh => ?device, fun hpage hclosed => startDma_closed hpage hclosed, fun hpage hsafe => ?start,
    fun u v inp _ htimed hmove => ?time⟩
  case device => exact startDma_device s ((dmaPageRefused_iff d).mpr ⟨hlow, hhigh⟩)
  case start =>
    refine ⟨_, startDma_safe hpage hsafe, rfl, rfl, rfl, rfl, fun hplain => ?_⟩
    obtain ⟨u, hu, hrest, hcopied⟩ := dmaStepsFrom_copied hplain (Nat.le_refl 256)
    refine ⟨u, hu, ?_, ?_, fun i => hcopied i i.isLt⟩
    · rw [hrest]
      rfl
    · have haddr : s.ppu.oamAddr + BitVec.ofNat 8 256 = s.ppu.oamAddr := BitVec.add_zero _
      have hdma : u.dma = { active := decide (256 < 256), page := d, index := BitVec.ofNat 8 256 } := by rw [hrest]
      rwa [haddr, ← hdma] at hrest
  case time =>
    rw [dmaMove_cycles htimed hmove, State.dmaCycles]
    exact ⟨fun h => by rw [if_pos h]; split <;> omega, fun h => by rw [if_neg h]⟩

end Sys2Proof.Machine

/-! PROOF of O42 to O45. The MMC3: the register a CPU write reaches, the ROM byte an address shows, and the scanline counter's
clocks (63_mmc3.md R331 to R353). -/

namespace Sys2Proof.Machine

/-! ### Register writes. -/

theorem exec_staAbs (a : Addr) (s : State) : exec (.staAbs a) s = onWrite (memWrite a s.cpu.a s) := rfl

/-- A store to $8000-$FFFF is a write of an MMC3 register (R47). -/
theorem exec_staAbs_rom {s : State} {a : Addr} (h : 0x8000 ≤ a.toNat) {m : Mmc3} (hm : s.mmc3.writeReg a s.cpu.a = m) :
    exec (.staAbs a) s = .next { s with mmc3 := m } := by
  rw [exec_staAbs, memWrite_rom s _ h, hm]
  rfl

/-- The bank register that a bank data write stores into (R333). -/
theorem setBank_eq (m : Mmc3) (d : Byte) :
    m.setBank d =
      if m.bankSelect.toNat % 8 = 0 then { m with r0 := d } else if m.bankSelect.toNat % 8 = 1 then { m with r1 := d }
      else if m.bankSelect.toNat % 8 = 2 then { m with r2 := d } else if m.bankSelect.toNat % 8 = 3 then { m with r3 := d }
      else if m.bankSelect.toNat % 8 = 4 then { m with r4 := d } else if m.bankSelect.toNat % 8 = 5 then { m with r5 := d }
      else if m.bankSelect.toNat % 8 = 6 then { m with r6 := d } else { m with r7 := d } := by
  have hlt : m.bankSelect.toNat % 8 < 8 := Nat.mod_lt _ (by decide)
  unfold Mmc3.setBank
  rw [byte_mask_07]
  generalize m.bankSelect.toNat % 8 = register at hlt ⊢
  interval_cases register <;> rfl

section registers
variable {a : Addr} (m : Mmc3) (d : Byte)

theorem writeReg_bankSelect (h : Mmc3.regOf a = 0) : m.writeReg a d = { m with bankSelect := d } := by
  simp only [Mmc3.writeReg, h]
theorem writeReg_bankData (h : Mmc3.regOf a = 1) : m.writeReg a d = m.setBank d := by
  simp only [Mmc3.writeReg, h]
theorem writeReg_mirroring (h : Mmc3.regOf a = 2) : m.writeReg a d = { m with mirroring := d.getLsbD 0 } := by
  simp only [Mmc3.writeReg, h]
theorem writeReg_prgRamProtect (h : Mmc3.regOf a = 3) : m.writeReg a d = { m with prgRamProtect := d } := by
  simp only [Mmc3.writeReg, h]
theorem writeReg_irqLatch (h : Mmc3.regOf a = 4) : m.writeReg a d = { m with irqLatch := d } := by
  simp only [Mmc3.writeReg, h]
theorem writeReg_irqReload (h : Mmc3.regOf a = 5) : m.writeReg a d = { m with irqCounter := 0, irqReload := true } := by
  simp only [Mmc3.writeReg, h]
theorem writeReg_irqDisable (h : Mmc3.regOf a = 6) :
    m.writeReg a d = { m with irqEnable := false, irqPending := false } := by
  simp only [Mmc3.writeReg, h]
theorem writeReg_irqEnable (h : Mmc3.regOf a = 7) : m.writeReg a d = { m with irqEnable := true } := by
  simp only [Mmc3.writeReg, h]

end registers

/-- The register of an address is chosen by its window and its parity (R331). -/
theorem regOf_eq {a : Addr} {window parity : Nat} (h : a.toNat / 0x2000 % 4 = window) (h' : a.toNat % 2 = parity) :
    Mmc3.regOf a = window * 2 + parity := by
  rw [Mmc3.regOf, h, h']

/-- Settles O42: the register of each window and parity, and what a store to it writes. -/
theorem mmc3RegisterWrites : Obligations.Mmc3RegisterWrites := by
  intro s a hrom d m even
  have hlt := a.isLt
  have hodd : ¬even → a.toNat % 2 = 1 := Nat.mod_two_ne_zero.mp
  have hstore {m' : Mmc3} (hm : m.writeReg a d = m') : exec (.staAbs a) s = .next { s with mmc3 := m' } :=
    exec_staAbs_rom hrom hm
  refine ⟨fun h he => ?bankSelect, fun h ho => ?bankData, fun h h' he => ?mirroring, fun h h' ho => ?protect,
    fun h h' he => ?latch, fun h h' ho => ?reload, fun h he => ?disable, fun h ho => ?enable⟩
  case bankSelect => exact hstore (writeReg_bankSelect m d (regOf_eq (window := 0) (by omega) he))
  case bankData =>
    rw [← setBank_eq]
    exact hstore (writeReg_bankData m d (regOf_eq (window := 0) (by omega) (hodd ho)))
  case mirroring => exact hstore (writeReg_mirroring m d (regOf_eq (window := 1) (by omega) he))
  case protect => exact hstore (writeReg_prgRamProtect m d (regOf_eq (window := 1) (by omega) (hodd ho)))
  case latch => exact hstore (writeReg_irqLatch m d (regOf_eq (window := 2) (by omega) he))
  case reload => exact hstore (writeReg_irqReload m d (regOf_eq (window := 2) (by omega) (hodd ho)))
  case disable => exact hstore (writeReg_irqDisable m d (regOf_eq (window := 3) (by omega) he))
  case enable => exact hstore (writeReg_irqEnable m d (regOf_eq (window := 3) (by omega) (hodd ho)))

/-! ### The windows. -/

/-- Settles O43: the bank by `Mmc3.prgBank_eq`, the byte by the bus, the range and the fixed window by their laws. -/
theorem prgWindows : Obligations.PrgWindows := by
  intro s a hrom m mode1 bank
  have hoffset : m.prgOffset a = bank * 0x2000 + a.toNat % 0x2000 := by
    rw [Mmc3.prgOffset, Mmc3.prgBank_eq m hrom]
  refine ⟨hoffset, m.prgOffset_lt a, ?_, fun hfixed m' => m'.prgOffset_fixed hfixed⟩
  rw [memRead_rom s hrom, State.prgByte, ← hoffset]

/-- Settles O44: the slot by `Mmc3.chrAddr_toNat`, its unit by `Mmc3.chrUnit_toNat`, modulo the 128 units of CHR ROM. -/
theorem chrWindows : Obligations.ChrWindows := by
  intro s a hchr m b unit
  have hb : (m.chrAddr a).toNat = b := m.chrAddr_toNat hchr
  have hb_lt : b < 0x2000 := by
    rw [← hb, m.chrAddr_toNat hchr]
    split <;> omega
  have hunit : (m.chrUnit (b / 0x400)).toNat = unit := m.chrUnit_toNat hb_lt
  have hoffset : m.chrOffset a = unit % 128 * 0x400 + b % 0x400 := by
    rw [Mmc3.chrOffset, hb, byte_mask_7F, hunit]
  refine ⟨hoffset, m.chrOffset_lt a, ?_⟩
  rw [ppuRead_chr s hchr, hoffset]

/-! ### The scanline counter. -/

/-- The counter's value after a clock (R352). -/
theorem nextCounter_eq (m : Mmc3) :
    m.nextCounter = if m.irqCounter = 0 ∨ m.irqReload = true then m.irqLatch else m.irqCounter - 1 := by
  simp only [Mmc3.nextCounter, Bool.or_eq_true, decide_eq_true_eq]

theorem clockTimes_irqEnable (k : Nat) (m : Mmc3) : (Mmc3.clockTimes k m).irqEnable = m.irqEnable := by
  rw [Mmc3.clockTimes_eq]

/-- The counter and the request `k` clocks after the one that reloads: the counter runs down from the latch, the request rises
as it reaches 0 and stays (R353). -/
theorem clockTimes_countdown {m : Mmc3} (hreload : m.irqReload = true)
    (henable : m.irqEnable = true) (hpending : m.irqPending = false) (k : Nat) :
    (Mmc3.clockTimes (k + 1) m).irqReload = false ∧
    (k ≤ m.irqLatch.toNat → (Mmc3.clockTimes (k + 1) m).irqCounter.toNat = m.irqLatch.toNat - k) ∧
    (Mmc3.clockTimes (k + 1) m).irqPending = decide (m.irqLatch.toNat ≤ k) := by
  induction k with
  | zero =>
    have hnext : m.nextCounter = m.irqLatch := by rw [nextCounter_eq, if_pos (.inr hreload)]
    refine ⟨rfl, fun _ => congrArg BitVec.toNat hnext, ?_⟩
    show (m.irqPending || (m.irqEnable && decide (m.nextCounter = 0))) = _
    rw [hnext, hpending, henable, Bool.false_or, Bool.true_and, decide_eq_decide, ← BitVec.toNat_inj]
    exact Nat.le_zero.symm
  | succ k ih =>
    obtain ⟨hreload', hcounter, hpending'⟩ := ih
    rw [clockTimes_succ]
    generalize hm' : Mmc3.clockTimes (k + 1) m = m' at hreload' hcounter hpending' ⊢
    have henable' : m'.irqEnable = true := by rw [← hm', clockTimes_irqEnable, henable]
    have hdown (hk : k + 1 ≤ m.irqLatch.toNat) : m'.nextCounter.toNat = m.irqLatch.toNat - (k + 1) := by
      have hc := hcounter (by omega)
      have hne : ¬(m'.irqCounter = 0 ∨ m'.irqReload = true) := by
        rw [hreload', ← BitVec.toNat_inj]
        simp
        omega
      rw [nextCounter_eq, if_neg hne]
      bv_omega
    refine ⟨rfl, hdown, ?_⟩
    show (m'.irqPending || (m'.irqEnable && decide (m'.nextCounter = 0))) = _
    rw [hpending', henable', Bool.true_and, ← Bool.decide_or, decide_eq_decide, ← BitVec.toNat_inj]
    obtain hk | hk := Nat.lt_or_ge k m.irqLatch.toNat
    · rw [hdown hk]
      show _ ∨ _ = 0 ↔ _
      omega
    · simp only [hk, true_or, true_iff]
      omega

/-- Settles O45: one clock by its definition, the clocks after a reload by `clockTimes_countdown`. -/
theorem scanlineCounterTarget : Obligations.ScanlineCounterTarget := by
  refine ⟨fun m => ?clock, fun m k _ hreload henable hpending => ?target⟩
  case clock =>
    intro counter
    have hnext : m.nextCounter = counter := nextCounter_eq m
    have hrequest : (m.irqPending || (m.irqEnable && decide (m.nextCounter = 0))) =
        if counter = 0 ∧ m.irqEnable = true then true else m.irqPending := by
      rw [hnext, Bool.if_true_left, Bool.decide_and, Bool.decide_eq_true, Bool.or_comm, Bool.and_comm]
    rw [Mmc3.clock, hrequest, hnext]
  case target =>
    cases k with
    | zero => exact ⟨hpending, nofun⟩
    | succ k =>
      obtain ⟨-, hcounter, hpending'⟩ := clockTimes_countdown hreload henable hpending k
      refine ⟨hpending'.trans (decide_eq_decide.mpr (by omega)), fun _ hk => (hcounter (by omega)).trans (by omega)⟩

end Sys2Proof.Machine

/-! PROOF of O47. The image in the file, byte by byte, and the two address conversions: an address of the window shows the
byte of one file offset, and that offset is visible at the address (64_ines_image.md R371 to R379, 90_conflicts.md C1, C3). -/

namespace Sys2Proof.Machine

/-! ### The image. -/

/-- A byte of a slice of the file (R371). -/
theorem read_ofBytes_slice (file : List Byte) (start : Nat) {size i : Nat} (hi : i < size) :
    (Memory.ofBytes 0 ((file.drop start).take size)).read i = file.getD (start + i) 0 := by
  have hread := Memory.read_ofBytes ((file.drop start).take size) 0 i
  rw [Nat.zero_add] at hread
  rw [hread, List.getD_eq_getElem?_getD, List.getElem?_take_of_lt hi, List.getElem?_drop, List.getD_eq_getElem?_getD]
  rfl

/-! ### The conversions. -/

/-- An 8KB bank is seen in the window of an address where it is the bank that address shows (R338, R375). -/
theorem shows_iff_prgBank (m : Mmc3) (a : Addr) (bank : Nat) :
    m.shows (a.toNat / 0x2000 % 4) bank = true ↔ m.prgBank a = bank := by
  have hlt : a.toNat / 0x2000 % 4 < 4 := Nat.mod_lt _ (by decide)
  unfold Mmc3.shows Mmc3.prgBank
  generalize a.toNat / 0x2000 % 4 = window at hlt ⊢
  interval_cases window <;> cases m.bankSelect.getLsbD 7 <;> simp [eq_comm]

/-- The address of a place in a window (R375). -/
theorem window_address_iff {a : Addr} {window offset : Nat} (hw : window < 4) (ho : offset < 0x2000) :
    BitVec.ofNat 16 (0x8000 + window * 0x2000 + offset) = a ↔
      0x8000 ≤ a.toNat ∧ a.toNat / 0x2000 % 4 = window ∧ a.toNat % 0x2000 = offset := by
  have hlt := a.isLt
  rw [← BitVec.toNat_inj, BitVec.toNat_ofNat]
  omega

/-- The addresses of a PRG offset are those that show it (R338, R375). -/
theorem mem_cpuAddresses_iff_prgOffset (m : Mmc3) (a : Addr) {fileOffset prgOffset : Nat}
    (h : prgOffsetOfFile fileOffset = some prgOffset) :
    a ∈ m.cpuAddresses fileOffset ↔ 0x8000 ≤ a.toNat ∧ m.prgOffset a = prgOffset := by
  have hoffset : offsetInBank8 prgOffset < 0x2000 := Nat.mod_lt _ (by decide)
  have hshown : m.prgOffset a = prgOffset ↔
      m.prgBank a = prgBank8 prgOffset ∧ a.toNat % 0x2000 = offsetInBank8 prgOffset := by
    unfold Mmc3.prgOffset prgBank8 offsetInBank8
    omega
  rw [mem_cpuAddresses m a h, hshown, ← shows_iff_prgBank]
  constructor
  · rintro ⟨window, hw, hs, ha⟩
    obtain ⟨hrom, rfl, ho⟩ := (window_address_iff hw hoffset).mp ha
    exact ⟨hrom, hs, ho⟩
  · rintro ⟨hrom, hs, ho⟩
    have hw : a.toNat / 0x2000 % 4 < 4 := Nat.mod_lt _ (by decide)
    exact ⟨_, hw, hs, (window_address_iff hw hoffset).mpr ⟨hrom, rfl, ho⟩⟩

/-- The two conversions are inverse to each other (R375, R377, R378). -/
theorem mem_cpuAddresses_iff_fileOffset (m : Mmc3) (a : Addr) (offset : Nat) :
    a ∈ m.cpuAddresses offset ↔ m.fileOffset a = some offset := by
  have hlt : m.prgOffset a < 0x40000 := m.prgOffset_lt a
  have hfile : m.fileOffset a = some offset ↔ 0x8000 ≤ a.toNat ∧ 0x10 + m.prgOffset a = offset := by
    simp only [Mmc3.fileOffset, Option.ite_none_right_eq_some, Option.some.injEq]
    rfl
  rw [hfile]
  by_cases hinside : 0x10 ≤ offset ∧ offset < 0x40010
  · rw [mem_cpuAddresses_iff_prgOffset m a (prgOffsetOfFile_inside hinside.1 hinside.2)]
    omega
  · rw [cpuAddresses_outside m (by omega)]
    simp only [List.not_mem_nil, false_iff]
    omega

/-- In PRG mode 0 the last 16KB are in order at $C000-$FFFF (R338, 90_conflicts.md C3). -/
theorem prgOffset_last16 {m : Mmc3} {a : Addr} (h : 0xC000 ≤ a.toNat) (hmode : m.bankSelect.getLsbD 7 = false) :
    m.prgOffset a = 0x3C000 + (a.toNat - 0xC000) := by
  have hlt := a.isLt
  rw [Mmc3.prgOffset, m.prgBank_eq (by omega), hmode, if_neg (by omega), if_neg (by omega)]
  simp only [Bool.false_eq_true, if_false]
  split <;> omega

/-- The source's formula for 16KB bank 15 gives the address back (R375). -/
theorem bank15CpuAddress_last16 {a : Addr} (h : 0xC000 ≤ a.toNat) :
    bank15CpuAddress (a.toNat - 0xC000 + 0x3C010) = some a := by
  have hlt := a.isLt
  have hbank : prgBank16 (a.toNat - 0xC000 + 0x3C010 - 0x10) = 15 := by unfold prgBank16; omega
  have haddr : 0xC000 + offsetInBank16 (a.toNat - 0xC000 + 0x3C010 - 0x10) = a.toNat := by unfold offsetInBank16; omega
  rw [bank15CpuAddress_of (prgOffsetOfFile_inside (by omega) (by omega)) hbank, haddr, BitVec.ofNat_toNat,
    BitVec.setWidth_eq]

/-- Settles O47: the image as two slices of the file, then the conversions and their constants. -/
theorem imageAndFileOffsets : Obligations.ImageAndFileOffsets := by
  refine ⟨fun file i _ => ⟨fun hi => read_ofBytes_slice file _ hi, fun hi => read_ofBytes_slice file _ hi⟩,
    fun m a offset => ⟨mem_cpuAddresses_iff_fileOffset m a offset, fileOffset_below m, cpuAddresses_outside m,
      fun hfixed => ?fixed, fun hlast hmode => ?last⟩⟩
  case fixed =>
    have hshown : m.fileOffset a = some (a.toNat - 0xE000 + 0x3E010) := by
      rw [fileOffset_window m (by omega), m.prgOffset_fixed hfixed, Option.some.injEq]
      omega
    exact ⟨hshown, hshown.trans (if_pos hfixed).symm⟩
  case last =>
    have hshown : m.fileOffset a = some (a.toNat - 0xC000 + 0x3C010) := by
      rw [fileOffset_window m (by omega), prgOffset_last16 hlast hmode, Option.some.injEq]
      omega
    exact ⟨hshown, hshown.trans (if_pos ⟨hlast, hmode⟩).symm, bank15CpuAddress_last16 hlast⟩

end Sys2Proof.Machine
